-- ==== Sys2Proof/Word.lean ====
section
/-! DEFINITION. The two word types of the machine: the byte, which is the one unit the bus moves, and the
16-bit address (spec 00 R8, R6; 20 R50, R77). -/

namespace Sys2Proof

/-- A byte: "all memory cells and device-visible values are 8-bit unsigned" (00 R8). -/
abbrev Byte := BitVec 8

/-- An address of the one 16-bit address space (20 R50). -/
abbrev Addr := BitVec 16

end Sys2Proof
end

