-- ==== Sys2Proof/Config.lean ====
section
/-! DEFINITION. What is fixed for one machine: the constants of spec 00 R6, and the parameters the spec leaves OPEN.
An OPEN parameter is an opaque constant with no body: no proof can learn its value, so a claim that holds of the
model holds for every value of it (log entries 8 to 13, 29, 32). -/

namespace Sys2Proof

/-- The two modes of the bank switch, BANK_ROM and BANK_RAM (10 R32). -/
inductive BankMode
  | rom
  | ram
  deriving DecidableEq, Repr, Inhabited

namespace Config

/-- `CA_CYCLES` (00 R6, 47 R261): repetitions in a CA header tone. -/
def caCycles : Nat := 500

/-- `CB_CYCLES` (00 R6, 47 R261): repetitions in a CB header tone. -/
def cbCycles : Nat := 32

/-- The start `W` of the BankSW window (20 R60, R66). DESIGN CHOICE (log entry 13): `CARTRIDGE_PRESENT` is false,
the one value 20 R72 admits without a cartridge's own description, so `W` is 0xC100. -/
def windowStart : Nat := 0xC100

/-- `IO_READ_VALUE` (20 R69; 47 R269, R278; D20), as a draw per read: the byte the n-th such read of the run
returns. A free value (log entry 8). -/
opaque ioReadValue : Nat → Byte

/-- `BANKSW_MIRROR_SELECT` (20 R70; D19): the bank an address of 0xC080 to 0xC08B selects (log entry 9). -/
opaque bankswMirrorSelect : Addr → BankMode

/-- `DecAdd` where an operand is not valid BCD (42 R163; D13): result byte and carry (log entry 10). -/
opaque decAddInvalid : Byte → Byte → Bool → Byte × Bool

/-- `DecSub` where an operand is not valid BCD (42 R163; D13): result byte and carry (log entry 10). -/
opaque decSubInvalid : Byte → Byte → Bool → Byte × Bool

/-- `KEYMAP` (47 R255; D25): which of the 26 letter keys and 10 digit keys (numbered 0 to 35, A to Z then 0 to 9)
each of the fifteen symbols shares a matrix cell with (log entry 11). -/
opaque keymap : Fin 15 → Fin 36

/-- The COLOR rasterizer where 48 R300 promises nothing but a palette entry: the entry that pixel `i` of a byte gets,
from the byte, `PP` and `NN` (`ArtifactLUT`, `PixelLUT`; D30; log entry 12). -/
opaque colorCell (b : Byte) (pp nn : BitVec 2) (i : Nat) : Fin 16

/-- The framebuffer's pixel at a row and column before a refresh draws it, which the spec leaves at any value (10 R38,
93 U8). A free value (log entry 29). -/
opaque undrawnPixel : Fin 384 → Fin 560 → BitVec 24

/-- Whether the speaker's `lastError()` is cleared when the audio device becomes available again, of which the spec says
nothing (47 R279; log entry 32). -/
opaque clearsAudioError : Bool

end Config

end Sys2Proof
end

