-- ==== Sys2Proof/Syntax.lean ====
section
/-! DEFINITION. The instruction set: addressing modes (spec 30 R101, 40), operands, and `Instr`, with one constructor
for each of the 178 defined rows of spec/opcode_table.json and one, `unknown`, for the 78 rows of mnemonic UNKNOWN
(log entry 1). A constructor's fields are the row's operand fields (30 R103): `n` an 8-bit operand, `w` the 16-bit
operand `h:l`. -/

namespace Sys2Proof

/-- The addressing-mode tags of 30 R101, and `unknown` for the rows of 30 R106. -/
inductive Mode
  | imp | acc | imm | zp | zpx | zpy | izx | izy | izp | rel | abs | absx | absy | ind | iax | unknown
  deriving DecidableEq, Repr

/-- An operand in memory: the modes of 40 R123 to R131, with the operand field each carries. -/
inductive MemOperand
  /-- zero page, 40 R123 -/
  | zp (n : Byte)
  /-- zero page,X, 40 R124 -/
  | zpx (n : Byte)
  /-- zero page,Y, 40 R125 -/
  | zpy (n : Byte)
  /-- absolute, 40 R126 -/
  | abs (w : Addr)
  /-- absolute,X, 40 R127 -/
  | absx (w : Addr)
  /-- absolute,Y, 40 R128 -/
  | absy (w : Addr)
  /-- (zero page,X), 40 R129 -/
  | izx (n : Byte)
  /-- (zero page),Y, 40 R130 -/
  | izy (n : Byte)
  /-- (zero page), 40 R131 -/
  | izp (n : Byte)
  deriving DecidableEq, Repr

/-- An operand a load may name: immediate (40 R122) or in memory. -/
inductive Operand
  | imm (n : Byte)
  | mem (m : MemOperand)
  deriving DecidableEq, Repr

/-- The instruction set of the machine (00 R2, 30 R104 to R106). -/
inductive Instr
  /-- `LDA #$nn`: A9, R140 -/
  | ldaImm (n : Byte)
  /-- `LDA $nn`: A5, R140 -/
  | ldaZp (n : Byte)
  /-- `LDA $nn,X`: B5, R140 -/
  | ldaZpx (n : Byte)
  /-- `LDA $hhll`: AD, R140 -/
  | ldaAbs (w : Addr)
  /-- `LDA $hhll,X`: BD, R140 -/
  | ldaAbsx (w : Addr)
  /-- `LDA $hhll,Y`: B9, R140 -/
  | ldaAbsy (w : Addr)
  /-- `LDA ($nn,X)`: A1, R140 -/
  | ldaIzx (n : Byte)
  /-- `LDA ($nn),Y`: B1, R140 -/
  | ldaIzy (n : Byte)
  /-- `LDA ($nn)`: B2, R140 -/
  | ldaIzp (n : Byte)
  /-- `LDX #$nn`: A2, R141 -/
  | ldxImm (n : Byte)
  /-- `LDX $nn`: A6, R141 -/
  | ldxZp (n : Byte)
  /-- `LDX $nn,Y`: B6, R141 -/
  | ldxZpy (n : Byte)
  /-- `LDX $hhll`: AE, R141 -/
  | ldxAbs (w : Addr)
  /-- `LDX $hhll,Y`: BE, R141 -/
  | ldxAbsy (w : Addr)
  /-- `LDY #$nn`: A0, R142 -/
  | ldyImm (n : Byte)
  /-- `LDY $nn`: A4, R142 -/
  | ldyZp (n : Byte)
  /-- `LDY $nn,X`: B4, R142 -/
  | ldyZpx (n : Byte)
  /-- `LDY $hhll`: AC, R142 -/
  | ldyAbs (w : Addr)
  /-- `LDY $hhll,X`: BC, R142 -/
  | ldyAbsx (w : Addr)
  /-- `STA $nn`: 85, R143 -/
  | staZp (n : Byte)
  /-- `STA $nn,X`: 95, R143 -/
  | staZpx (n : Byte)
  /-- `STA $hhll`: 8D, R143 -/
  | staAbs (w : Addr)
  /-- `STA $hhll,X`: 9D, R143 -/
  | staAbsx (w : Addr)
  /-- `STA $hhll,Y`: 99, R143 -/
  | staAbsy (w : Addr)
  /-- `STA ($nn,X)`: 81, R143 -/
  | staIzx (n : Byte)
  /-- `STA ($nn),Y`: 91, R143 -/
  | staIzy (n : Byte)
  /-- `STA ($nn)`: 92, R143 -/
  | staIzp (n : Byte)
  /-- `STX $nn`: 86, R144 -/
  | stxZp (n : Byte)
  /-- `STX $nn,Y`: 96, R144 -/
  | stxZpy (n : Byte)
  /-- `STX $hhll`: 8E, R144 -/
  | stxAbs (w : Addr)
  /-- `STY $nn`: 84, R145 -/
  | styZp (n : Byte)
  /-- `STY $nn,X`: 94, R145 -/
  | styZpx (n : Byte)
  /-- `STY $hhll`: 8C, R145 -/
  | styAbs (w : Addr)
  /-- `STZ $nn`: 64, R146 -/
  | stzZp (n : Byte)
  /-- `STZ $nn,X`: 74, R146 -/
  | stzZpx (n : Byte)
  /-- `STZ $hhll`: 9C, R146 -/
  | stzAbs (w : Addr)
  /-- `STZ $hhll,X`: 9E, R146 -/
  | stzAbsx (w : Addr)
  /-- `TAX`: AA, R147 -/
  | tax
  /-- `TAY`: A8, R148 -/
  | tay
  /-- `TXA`: 8A, R149 -/
  | txa
  /-- `TYA`: 98, R150 -/
  | tya
  /-- `TSX`: BA, R151 -/
  | tsx
  /-- `TXS`: 9A, R152 -/
  | txs
  /-- `ADC #$nn`: 69, R161 -/
  | adcImm (n : Byte)
  /-- `ADC $nn`: 65, R161 -/
  | adcZp (n : Byte)
  /-- `ADC $nn,X`: 75, R161 -/
  | adcZpx (n : Byte)
  /-- `ADC $hhll`: 6D, R161 -/
  | adcAbs (w : Addr)
  /-- `ADC $hhll,X`: 7D, R161 -/
  | adcAbsx (w : Addr)
  /-- `ADC $hhll,Y`: 79, R161 -/
  | adcAbsy (w : Addr)
  /-- `ADC ($nn,X)`: 61, R161 -/
  | adcIzx (n : Byte)
  /-- `ADC ($nn),Y`: 71, R161 -/
  | adcIzy (n : Byte)
  /-- `ADC ($nn)`: 72, R161 -/
  | adcIzp (n : Byte)
  /-- `SBC #$nn`: E9, R162 -/
  | sbcImm (n : Byte)
  /-- `SBC $nn`: E5, R162 -/
  | sbcZp (n : Byte)
  /-- `SBC $nn,X`: F5, R162 -/
  | sbcZpx (n : Byte)
  /-- `SBC $hhll`: ED, R162 -/
  | sbcAbs (w : Addr)
  /-- `SBC $hhll,X`: FD, R162 -/
  | sbcAbsx (w : Addr)
  /-- `SBC $hhll,Y`: F9, R162 -/
  | sbcAbsy (w : Addr)
  /-- `SBC ($nn,X)`: E1, R162 -/
  | sbcIzx (n : Byte)
  /-- `SBC ($nn),Y`: F1, R162 -/
  | sbcIzy (n : Byte)
  /-- `SBC ($nn)`: F2, R162 -/
  | sbcIzp (n : Byte)
  /-- `CMP #$nn`: C9, R164 -/
  | cmpImm (n : Byte)
  /-- `CMP $nn`: C5, R164 -/
  | cmpZp (n : Byte)
  /-- `CMP $nn,X`: D5, R164 -/
  | cmpZpx (n : Byte)
  /-- `CMP $hhll`: CD, R164 -/
  | cmpAbs (w : Addr)
  /-- `CMP $hhll,X`: DD, R164 -/
  | cmpAbsx (w : Addr)
  /-- `CMP $hhll,Y`: D9, R164 -/
  | cmpAbsy (w : Addr)
  /-- `CMP ($nn,X)`: C1, R164 -/
  | cmpIzx (n : Byte)
  /-- `CMP ($nn),Y`: D1, R164 -/
  | cmpIzy (n : Byte)
  /-- `CMP ($nn)`: D2, R164 -/
  | cmpIzp (n : Byte)
  /-- `CPX #$nn`: E0, R165 -/
  | cpxImm (n : Byte)
  /-- `CPX $nn`: E4, R165 -/
  | cpxZp (n : Byte)
  /-- `CPX $hhll`: EC, R165 -/
  | cpxAbs (w : Addr)
  /-- `CPY #$nn`: C0, R166 -/
  | cpyImm (n : Byte)
  /-- `CPY $nn`: C4, R166 -/
  | cpyZp (n : Byte)
  /-- `CPY $hhll`: CC, R166 -/
  | cpyAbs (w : Addr)
  /-- `INC $nn`: E6, R167 -/
  | incZp (n : Byte)
  /-- `INC $nn,X`: F6, R167 -/
  | incZpx (n : Byte)
  /-- `INC $hhll`: EE, R167 -/
  | incAbs (w : Addr)
  /-- `INC $hhll,X`: FE, R167 -/
  | incAbsx (w : Addr)
  /-- `DEC $nn`: C6, R168 -/
  | decZp (n : Byte)
  /-- `DEC $nn,X`: D6, R168 -/
  | decZpx (n : Byte)
  /-- `DEC $hhll`: CE, R168 -/
  | decAbs (w : Addr)
  /-- `DEC $hhll,X`: DE, R168 -/
  | decAbsx (w : Addr)
  /-- `INX`: E8, R169 -/
  | inx
  /-- `INY`: C8, R170 -/
  | iny
  /-- `DEX`: CA, R171 -/
  | dex
  /-- `DEY`: 88, R172 -/
  | dey
  /-- `INA A`: 1A, R173 -/
  | ina
  /-- `DEA A`: 3A, R174 -/
  | dea
  /-- `AND #$nn`: 29, R180 -/
  | andImm (n : Byte)
  /-- `AND $nn`: 25, R180 -/
  | andZp (n : Byte)
  /-- `AND $nn,X`: 35, R180 -/
  | andZpx (n : Byte)
  /-- `AND $hhll`: 2D, R180 -/
  | andAbs (w : Addr)
  /-- `AND $hhll,X`: 3D, R180 -/
  | andAbsx (w : Addr)
  /-- `AND $hhll,Y`: 39, R180 -/
  | andAbsy (w : Addr)
  /-- `AND ($nn,X)`: 21, R180 -/
  | andIzx (n : Byte)
  /-- `AND ($nn),Y`: 31, R180 -/
  | andIzy (n : Byte)
  /-- `AND ($nn)`: 32, R180 -/
  | andIzp (n : Byte)
  /-- `ORA #$nn`: 09, R181 -/
  | oraImm (n : Byte)
  /-- `ORA $nn`: 05, R181 -/
  | oraZp (n : Byte)
  /-- `ORA $nn,X`: 15, R181 -/
  | oraZpx (n : Byte)
  /-- `ORA $hhll`: 0D, R181 -/
  | oraAbs (w : Addr)
  /-- `ORA $hhll,X`: 1D, R181 -/
  | oraAbsx (w : Addr)
  /-- `ORA $hhll,Y`: 19, R181 -/
  | oraAbsy (w : Addr)
  /-- `ORA ($nn,X)`: 01, R181 -/
  | oraIzx (n : Byte)
  /-- `ORA ($nn),Y`: 11, R181 -/
  | oraIzy (n : Byte)
  /-- `ORA ($nn)`: 12, R181 -/
  | oraIzp (n : Byte)
  /-- `EOR #$nn`: 49, R182 -/
  | eorImm (n : Byte)
  /-- `EOR $nn`: 45, R182 -/
  | eorZp (n : Byte)
  /-- `EOR $nn,X`: 55, R182 -/
  | eorZpx (n : Byte)
  /-- `EOR $hhll`: 4D, R182 -/
  | eorAbs (w : Addr)
  /-- `EOR $hhll,X`: 5D, R182 -/
  | eorAbsx (w : Addr)
  /-- `EOR $hhll,Y`: 59, R182 -/
  | eorAbsy (w : Addr)
  /-- `EOR ($nn,X)`: 41, R182 -/
  | eorIzx (n : Byte)
  /-- `EOR ($nn),Y`: 51, R182 -/
  | eorIzy (n : Byte)
  /-- `EOR ($nn)`: 52, R182 -/
  | eorIzp (n : Byte)
  /-- `BIT #$nn`: 89, R183 -/
  | bitImm (n : Byte)
  /-- `BIT $nn`: 24, R183 -/
  | bitZp (n : Byte)
  /-- `BIT $nn,X`: 34, R183 -/
  | bitZpx (n : Byte)
  /-- `BIT $hhll`: 2C, R183 -/
  | bitAbs (w : Addr)
  /-- `BIT $hhll,X`: 3C, R183 -/
  | bitAbsx (w : Addr)
  /-- `TRB $nn`: 14, R184 -/
  | trbZp (n : Byte)
  /-- `TRB $hhll`: 1C, R184 -/
  | trbAbs (w : Addr)
  /-- `TSB $nn`: 04, R185 -/
  | tsbZp (n : Byte)
  /-- `TSB $hhll`: 0C, R185 -/
  | tsbAbs (w : Addr)
  /-- `ASL A`: 0A, R186 -/
  | aslAcc
  /-- `ASL $nn`: 06, R186 -/
  | aslZp (n : Byte)
  /-- `ASL $nn,X`: 16, R186 -/
  | aslZpx (n : Byte)
  /-- `ASL $hhll`: 0E, R186 -/
  | aslAbs (w : Addr)
  /-- `ASL $hhll,X`: 1E, R186 -/
  | aslAbsx (w : Addr)
  /-- `LSR A`: 4A, R187 -/
  | lsrAcc
  /-- `LSR $nn`: 46, R187 -/
  | lsrZp (n : Byte)
  /-- `LSR $nn,X`: 56, R187 -/
  | lsrZpx (n : Byte)
  /-- `LSR $hhll`: 4E, R187 -/
  | lsrAbs (w : Addr)
  /-- `LSR $hhll,X`: 5E, R187 -/
  | lsrAbsx (w : Addr)
  /-- `ROL A`: 2A, R188 -/
  | rolAcc
  /-- `ROL $nn`: 26, R188 -/
  | rolZp (n : Byte)
  /-- `ROL $nn,X`: 36, R188 -/
  | rolZpx (n : Byte)
  /-- `ROL $hhll`: 2E, R188 -/
  | rolAbs (w : Addr)
  /-- `ROL $hhll,X`: 3E, R188 -/
  | rolAbsx (w : Addr)
  /-- `ROR A`: 6A, R189 -/
  | rorAcc
  /-- `ROR $nn`: 66, R189 -/
  | rorZp (n : Byte)
  /-- `ROR $nn,X`: 76, R189 -/
  | rorZpx (n : Byte)
  /-- `ROR $hhll`: 6E, R189 -/
  | rorAbs (w : Addr)
  /-- `ROR $hhll,X`: 7E, R189 -/
  | rorAbsx (w : Addr)
  /-- `JMP $hhll`: 4C, R200 -/
  | jmpAbs (w : Addr)
  /-- `JMP ($hhll)`: 6C, R201 -/
  | jmpInd (w : Addr)
  /-- `JMP ($hhll,X)`: 7C, R202 -/
  | jmpIax (w : Addr)
  /-- `JSR $hhll`: 20, R203 -/
  | jsr (w : Addr)
  /-- `RTS`: 60, R204 -/
  | rts
  /-- `BCC label`: 90, R206 -/
  | bcc (n : Byte)
  /-- `BCS label`: B0, R207 -/
  | bcs (n : Byte)
  /-- `BEQ label`: F0, R208 -/
  | beq (n : Byte)
  /-- `BNE label`: D0, R209 -/
  | bne (n : Byte)
  /-- `BMI label`: 30, R210 -/
  | bmi (n : Byte)
  /-- `BPL label`: 10, R211 -/
  | bpl (n : Byte)
  /-- `BVC label`: 50, R212 -/
  | bvc (n : Byte)
  /-- `BVS label`: 70, R213 -/
  | bvs (n : Byte)
  /-- `BRA label`: 80, R214 -/
  | bra (n : Byte)
  /-- `PHA`: 48, R222 -/
  | pha
  /-- `PLA`: 68, R223 -/
  | pla
  /-- `PHX`: DA, R226 -/
  | phx
  /-- `PLX`: FA, R227 -/
  | plx
  /-- `PHY`: 5A, R228 -/
  | phy
  /-- `PLY`: 7A, R229 -/
  | ply
  /-- `PHP`: 08, R224 -/
  | php
  /-- `PLP`: 28, R225 -/
  | plp
  /-- `CLC`: 18, R230 -/
  | clc
  /-- `SEC`: 38, R231 -/
  | sec
  /-- `CLI`: 58, R232 -/
  | cli
  /-- `SEI`: 78, R233 -/
  | sei
  /-- `CLD`: D8, R234 -/
  | cld
  /-- `SED`: F8, R235 -/
  | sed
  /-- `CLV`: B8, R236 -/
  | clv
  /-- `NOP`: EA, R237 -/
  | nop
  /-- `BRK`: 00, R240 -/
  | brk
  /-- `RTI`: 40, R241 -/
  | rti
  /-- Any of the 78 opcode bytes of 30 R106: R245 -/
  | unknown (op : Byte)
  deriving DecidableEq, Repr

end Sys2Proof
end

