-- ==== Sys2Proof/Machine/State.lean ====
section
/-! DEFINITION. The state of the machine as plain data: every piece of state spec 10 names, one small record per
device; the ways a step can stop; one named update per field; and the state right after reset (10 R38). -/

namespace Sys2Proof.Machine

/-- Why a powered machine's step would stop: it never does (60 R310, R311). -/
inductive Fault
  /-- Raised by `step` alone, when the machine is Off: "no step happens in the Off state" (60 R332). Safe. -/
  | poweredOff
  deriving DecidableEq, Repr

/-- Why an instruction would have no meaning here. -/
inductive Refusal
  /-- Raised by an arm of `exec` whose instruction has no meaning yet; no arm does. Safe. -/
  | notModelled (mnemonic : String)
  deriving DecidableEq, Repr

/-- `exceptionRegister` (10 R26): the three independent latches. -/
structure Latches where
  reset : Bool
  nmi   : Bool
  irq   : Bool
  deriving DecidableEq, Repr

/-- A memory's contents: the cells that differ from what an unlisted address reads as, at strictly rising addresses. -/
abbrev Memory := List Host.Cell

/-- Keyboard state, direct variant (10 R33). -/
structure Keyboard where
  row       : Fin 8
  col       : Fin 6
  ctrl      : Bool
  shift     : Bool
  clear     : Bool
  kbin      : Byte
  ctrlQuery : Bool
  deriving DecidableEq, Repr

/-- A one-bit line: the cassette input (CASIN 0x00 or 0x80) or the speaker line (0 or 1). -/
inductive Level
  | low
  | high
  deriving DecidableEq, Repr

/-- Cassette reader state (10 R34). -/
structure Tape where
  wave   : List Nat
  head   : Nat
  start  : Nat
  active : Bool
  armed  : Nat
  casin  : Level
  play   : Bool
  sound  : Bool
  deriving DecidableEq, Repr

/-- The recoverable error of the audio component (47 R279). -/
inductive AudioError
  /-- the host audio device is unavailable -/
  | unavailable
  deriving DecidableEq, Repr

/-- Speaker state (10 R35), with what the host sees of the audio device (47 R279, 60 R335): `available` is
`isAvailable()`, and `lastError` is `lastError()`, `none` where there is no error. -/
structure Speaker where
  line      : Level
  last      : Nat
  enabled   : Bool
  available : Bool
  lastError : Option AudioError
  deriving DecidableEq, Repr

/-- `colorMode` (10 R36). -/
inductive ColorMode
  | mono
  | color
  deriving DecidableEq, Repr

/-- `hiresBase` (10 R36): page 1 at 0x2000, page 2 at 0xA000. -/
inductive HiresPage
  | page1
  | page2
  deriving DecidableEq, Repr

/-- A pixel, `0x00RRGGBB` (48 R301). -/
abbrev Rgb := BitVec 24

/-- A row of the framebuffer, 560 pixels (10 R36, 00 R6). -/
abbrev PixelRow := Vector Rgb 560

/-- One of the 384 rows of the framebuffer, drawn by a refresh (10 R36, 00 R6). -/
structure DrawnRow where
  row    : Fin 384
  pixels : PixelRow
  deriving DecidableEq, Repr

/-- The framebuffer `FB[0..383][0..559]` (10 R36): the rows drawn so far, at strictly rising rows. A row not listed holds
the free values `Config.undrawnPixel`, so every pixel has a value at all times (`Framebuffer.pixel`; log entry 29). -/
abbrev Framebuffer := List DrawnRow

/-- Video state (10 R36): the softswitches, the framebuffer, and how far the refresh in progress has come (48 R296): the
scanline being read and the bytes of it read so far. -/
structure Video where
  colorMode : ColorMode
  hiresPage : HiresPage
  fb        : Framebuffer
  scanRow   : Nat
  scanLine  : List Byte
  deriving DecidableEq, Repr

/-- The two host-level states of the machine (60 R332). -/
inductive Power
  | off
  | on
  deriving DecidableEq, Repr

/-- A segment of the speaker's output: the level the line had, and for how many CPU cycles (47 R275). -/
structure Segment where
  level  : Level
  cycles : Nat
  deriving DecidableEq, Repr

/-- A run of equal samples written to the audio sink (47 R276). -/
structure SampleRun where
  amplitude : Byte
  count     : Nat
  deriving DecidableEq, Repr

/-- What the machine reports to the host (60 R335; 46 R245; 60 R332, R334 for the recoverable error). -/
inductive Signal
  | powerOn
  | powerOff
  | tapeEnd
  | damaged
  | assetMissing
  | unknownOpcode (op : Byte)
  deriving DecidableEq, Repr

/-- The machine's outputs so far, newest first. Nothing in the machine reads them (60 R335; log entry 22). -/
structure Outputs where
  segments : List Segment
  samples  : List SampleRun
  signals  : List Signal
  deriving DecidableEq, Repr

/-- The whole state (spec 10). `draws` is the model's own: it picks the next free value of `Config.ioReadValue`
(log entry 8). -/
structure State where
  a          : Byte
  x          : Byte
  y          : Byte
  sp         : Byte
  p          : Byte
  pc         : Addr
  latches    : Latches
  pendingIrq : Nat
  clock      : Nat
  ram        : Memory
  rom        : Memory
  bankMode   : BankMode
  kb         : Keyboard
  tape       : Tape
  snd        : Speaker
  vid        : Video
  power      : Power
  out        : Outputs
  draws      : Nat
  deriving DecidableEq, Repr

/-- How an instruction or a step ends. -/
abbrev Result := Host.Outcome State Fault Refusal

namespace State

def setA (s : State) (v : Byte) : State := { s with a := v }
def setX (s : State) (v : Byte) : State := { s with x := v }
def setY (s : State) (v : Byte) : State := { s with y := v }
def setSp (s : State) (v : Byte) : State := { s with sp := v }
def setP (s : State) (v : Byte) : State := { s with p := v }
def setPc (s : State) (v : Addr) : State := { s with pc := v }
def setLatches (s : State) (v : Latches) : State := { s with latches := v }
def setPendingIrq (s : State) (v : Nat) : State := { s with pendingIrq := v }
def setClock (s : State) (v : Nat) : State := { s with clock := v }
def setRam (s : State) (v : Memory) : State := { s with ram := v }
def setRom (s : State) (v : Memory) : State := { s with rom := v }
def setBankMode (s : State) (v : BankMode) : State := { s with bankMode := v }
def setKb (s : State) (v : Keyboard) : State := { s with kb := v }
def setTape (s : State) (v : Tape) : State := { s with tape := v }
def setSnd (s : State) (v : Speaker) : State := { s with snd := v }
def setVid (s : State) (v : Video) : State := { s with vid := v }
def setPower (s : State) (v : Power) : State := { s with power := v }
def setOut (s : State) (v : Outputs) : State := { s with out := v }
def setDraws (s : State) (v : Nat) : State := { s with draws := v }

/-- The machine right after reset: powered on (70 R340) and through the CPU RESET sequence (60 R313), the third column
of 10 R38. The values 10 R38 leaves unspecified or to the host, the blank ROM image and so the vector 0x0000 it holds,
are the model's (log entries 2, 3, 6, 7, 29). -/
def reset : State where
  a := 0x00
  x := 0x00
  y := 0x00
  sp := 0xFF
  p := 0x20
  pc := 0x0000
  latches := ⟨false, false, false⟩
  pendingIrq := 0
  clock := 0
  ram := []
  rom := []
  bankMode := .rom
  kb := { row := 0, col := 0, ctrl := false, shift := false, clear := true, kbin := 0x00, ctrlQuery := false }
  tape := { wave := [], head := 0, start := 0, active := false, armed := 0, casin := .low, play := false, sound := false }
  snd := { line := .low, last := 0, enabled := false, available := false, lastError := some .unavailable }
  vid := { colorMode := .mono, hiresPage := .page1, fb := [], scanRow := 0, scanLine := [] }
  power := .on
  out := { segments := [], samples := [], signals := [] }
  draws := 0

end State

end Sys2Proof.Machine
end

