-- ==== Sys2Proof/Machine/Flags.lean ====
section
/-! DEFINITION. The status register's bits (spec 10 R23) and every flag computation of the instruction set: N and Z
(00 R9), the binary adder (42 R160), decimal mode (42 R163), and the four shifts (43 R186 to R189). -/

namespace Sys2Proof.Machine

/-- The named bits of `P` (10 R23); bit 5 has no name and always reads 1. -/
inductive Flag
  | c | z | i | d | b | v | n
  deriving DecidableEq, Repr

/-- The bit position of a flag (10 R23). -/
def Flag.bit : Flag → Nat
  | .c => 0
  | .z => 1
  | .i => 2
  | .d => 3
  | .b => 4
  | .v => 6
  | .n => 7

/-- The flag `f` of a status byte. -/
def getFlag (p : Byte) (f : Flag) : Bool := p.getLsbD f.bit

/-- A status byte with flag `f` set to `v` and every other bit kept. -/
def setFlag (p : Byte) (f : Flag) (v : Bool) : Byte :=
  if v then p ||| (1#8 <<< f.bit) else p &&& ~~~(1#8 <<< f.bit)

/-- Bit 5 of a status byte, which has no name and in `P` "always reads 1" (10 R23, R25). -/
def unusedBit (p : Byte) : Bool := p.getLsbD 5

/-- What every write of a whole byte into `P` does: bit 5 is forced to 1, and B is taken as it is (10 R25). -/
def statusOfByte (v : Byte) : Byte := v ||| 0x20

/-- The byte PHP and BRK push for `P`: B = 1 and bit 5 = 1 (10 R25). -/
def pushedByBreak (p : Byte) : Byte := p ||| 0x30

/-- The byte the IRQ sequence pushes for `P`: B = 0 and bit 5 = 1 (10 R25). -/
def pushedByIrq (p : Byte) : Byte := (p &&& 0xEF) ||| 0x20

/-- The byte the NMI sequence pushes for `P`: bit 5 = 1 and B as held (10 R25, D5). -/
def pushedByNmi (p : Byte) : Byte := p ||| 0x20

/-- `SetNZ(v)` on a status byte (00 R9). -/
def setNZ (v p : Byte) : Byte := setFlag (setFlag p .n (v.getLsbD 7)) .z (v == 0)

/-- `Add9(a, m, c)`: the 9-bit result, a natural 0 to 511 (42 R160). -/
def add9 (a m : Byte) (c : Bool) : Nat := a.toNat + m.toNat + c.toNat

/-- `CarryOut(t)`: bit 8 of the 9-bit result (42 R160). -/
def carryOut (t : Nat) : Bool := t.testBit 8

/-- `Ovf(a, m, t)`: "operand and A have the same sign, and A and result have opposite signs" (42 R160). -/
def ovf (a m : Byte) (t : Nat) : Bool :=
  ((a ^^^ m) &&& 0x80) == 0 && ((a ^^^ BitVec.ofNat 8 t) &&& 0x80) != 0

/-- Both nibbles of the byte are decimal digits: "valid BCD" (42 R163). -/
def validBcd (b : Byte) : Bool := b.toNat / 16 ≤ 9 && b.toNat % 16 ≤ 9

/-- `bcd(x)`, the number a valid BCD byte stands for (42 R163). -/
def bcd (b : Byte) : Nat := 10 * (b.toNat / 16) + b.toNat % 16

/-- `enc(n)`, the BCD byte of a number 0 to 99 (42 R163). -/
def encBcd (n : Nat) : Byte := BitVec.ofNat 8 (n / 10 * 16 + n % 10)

/-- `DecAdd(a, m, c)`: BCD addition, fixed by P-BCD-ADD on valid operands and free elsewhere (42 R163; log entry 10). -/
def decAdd (a m : Byte) (c : Bool) : Byte × Bool :=
  if validBcd a && validBcd m then
    let sum := bcd a + bcd m + c.toNat
    (encBcd (sum % 100), 100 ≤ sum)
  else Config.decAddInvalid a m c

/-- `DecSub(a, m, c)`: BCD subtraction, fixed by P-BCD-SUB on valid operands and free elsewhere (42 R163; log entry 10). -/
def decSub (a m : Byte) (c : Bool) : Byte × Bool :=
  if validBcd a && validBcd m then
    let take := bcd m + (!c).toNat
    if take ≤ bcd a then (encBcd (bcd a - take), true) else (encBcd (bcd a + 100 - take), false)
  else Config.decSubInvalid a m c

/-- The byte and the status that ADC leaves for accumulator `a`, operand `m` and status `p` (42 R161): V from the binary
result in both modes, C from the adder or from `DecAdd`, N and Z from the byte written. -/
def adcResult (a m p : Byte) : Byte × Byte :=
  let c := getFlag p .c
  let t := add9 a m c
  let r := if getFlag p .d then decAdd a m c else (BitVec.ofNat 8 t, carryOut t)
  (r.1, setNZ r.1 (setFlag (setFlag p .v (ovf a m t)) .c r.2))

/-- The byte and the status that SBC leaves (42 R162): the adder on the complemented operand, decimal by `DecSub`. -/
def sbcResult (a m p : Byte) : Byte × Byte :=
  let c := getFlag p .c
  let t := add9 a (m ^^^ 0xFF) c
  let r := if getFlag p .d then decSub a m c else (BitVec.ofNat 8 t, carryOut t)
  (r.1, setNZ r.1 (setFlag (setFlag p .v (ovf a (m ^^^ 0xFF) t)) .c r.2))

/-- The status a comparison of register value `r` with `m` leaves (42 R164 to R166): always binary. -/
def compareStatus (r m p : Byte) : Byte :=
  let t := add9 r (m ^^^ 0xFF) true
  setNZ (BitVec.ofNat 8 t) (setFlag p .c (carryOut t))

/-- ASL of `v` under status `p`: the new byte and status (43 R186). -/
def aslResult (v p : Byte) : Byte × Byte :=
  let r := v <<< 1
  (r, setNZ r (setFlag p .c (v.getLsbD 7)))

/-- LSR (43 R187). -/
def lsrResult (v p : Byte) : Byte × Byte :=
  let r := v >>> 1
  (r, setNZ r (setFlag p .c (v.getLsbD 0)))

/-- ROL (43 R188): the old carry enters bit 0. -/
def rolResult (v p : Byte) : Byte × Byte :=
  let r := (v <<< 1) ||| (if getFlag p .c then 0x01 else 0x00)
  (r, setNZ r (setFlag p .c (v.getLsbD 7)))

/-- ROR (43 R189): the old carry enters bit 7. -/
def rorResult (v p : Byte) : Byte × Byte :=
  let r := (v >>> 1) ||| (if getFlag p .c then 0x80 else 0x00)
  (r, setNZ r (setFlag p .c (v.getLsbD 0)))

/-- INC and its register forms: the new byte and status (42 R167, R169, R170, R173). -/
def incResult (v p : Byte) : Byte × Byte := (v + 1, setNZ (v + 1) p)

/-- DEC and its register forms (42 R168, R171, R172, R174). -/
def decResult (v p : Byte) : Byte × Byte := (v - 1, setNZ (v - 1) p)

/-- TRB (43 R184): the byte written back, and Z from `A & old`. -/
def trbResult (a old p : Byte) : Byte × Byte := (old &&& (a ^^^ 0xFF), setFlag p .z ((a &&& old) == 0))

/-- TSB (43 R185). -/
def tsbResult (a old p : Byte) : Byte × Byte := (old ||| a, setFlag p .z ((a &&& old) == 0))

/-- The status BIT of a memory byte leaves: Z from `A & m`, N and V from bits 7 and 6 of `m` (43 R183). -/
def bitMemStatus (a m p : Byte) : Byte :=
  setFlag (setFlag (setFlag p .z ((a &&& m) == 0)) .n (m.getLsbD 7)) .v (m.getLsbD 6)

/-- The status BIT #imm leaves: Z only (43 R183). -/
def bitImmStatus (a m p : Byte) : Byte := setFlag p .z ((a &&& m) == 0)

end Sys2Proof.Machine
end

