-- ==== Sys2Proof/WellFormed.lean ====
section
/-! DEFINITION. Well-formed instructions: what the encodings of spec 30 admit. Every operand field of a defined row
admits all its values (30 R103), so the one check is that `unknown` carries one of the 78 bytes of 30 R106. -/

namespace Sys2Proof

/-- The 78 unknown opcode bytes, as 30 R106 lists them. -/
def unknownOpcodes : List Byte :=
  [0x02, 0x03, 0x07, 0x0B, 0x0F, 0x13, 0x17, 0x1B, 0x1F, 0x22, 0x23, 0x27, 0x2B, 0x2F, 0x33, 0x37] ++
  [0x3B, 0x3F, 0x42, 0x43, 0x44, 0x47, 0x4B, 0x4F, 0x53, 0x54, 0x57, 0x5B, 0x5C, 0x5F, 0x62, 0x63] ++
  [0x67, 0x6B, 0x6F, 0x73, 0x77, 0x7B, 0x7F, 0x82, 0x83, 0x87, 0x8B, 0x8F, 0x93, 0x97, 0x9B, 0x9F] ++
  [0xA3, 0xA7, 0xAB, 0xAF, 0xB3, 0xB7, 0xBB, 0xBF, 0xC2, 0xC3, 0xC7, 0xCB, 0xCF, 0xD3, 0xD4, 0xD7] ++
  [0xDB, 0xDC, 0xDF, 0xE2, 0xE3, 0xE7, 0xEB, 0xEF, 0xF3, 0xF4, 0xF7, 0xFB, 0xFC, 0xFF]

/-- The well-formedness check of an instruction. -/
def Instr.wellFormed : Instr → Bool
  | .unknown op => unknownOpcodes.contains op
  | .ldaImm _ | .ldaZp _ | .ldaZpx _ | .ldaAbs _ | .ldaAbsx _ | .ldaAbsy _ | .ldaIzx _ | .ldaIzy _
  | .ldaIzp _ | .ldxImm _ | .ldxZp _ | .ldxZpy _ | .ldxAbs _ | .ldxAbsy _ | .ldyImm _ | .ldyZp _
  | .ldyZpx _ | .ldyAbs _ | .ldyAbsx _ | .staZp _ | .staZpx _ | .staAbs _ | .staAbsx _ | .staAbsy _
  | .staIzx _ | .staIzy _ | .staIzp _ | .stxZp _ | .stxZpy _ | .stxAbs _ | .styZp _ | .styZpx _
  | .styAbs _ | .stzZp _ | .stzZpx _ | .stzAbs _ | .stzAbsx _ | .tax | .tay | .txa
  | .tya | .tsx | .txs | .adcImm _ | .adcZp _ | .adcZpx _ | .adcAbs _ | .adcAbsx _
  | .adcAbsy _ | .adcIzx _ | .adcIzy _ | .adcIzp _ | .sbcImm _ | .sbcZp _ | .sbcZpx _ | .sbcAbs _
  | .sbcAbsx _ | .sbcAbsy _ | .sbcIzx _ | .sbcIzy _ | .sbcIzp _ | .cmpImm _ | .cmpZp _ | .cmpZpx _
  | .cmpAbs _ | .cmpAbsx _ | .cmpAbsy _ | .cmpIzx _ | .cmpIzy _ | .cmpIzp _ | .cpxImm _ | .cpxZp _
  | .cpxAbs _ | .cpyImm _ | .cpyZp _ | .cpyAbs _ | .incZp _ | .incZpx _ | .incAbs _ | .incAbsx _
  | .decZp _ | .decZpx _ | .decAbs _ | .decAbsx _ | .inx | .iny | .dex | .dey
  | .ina | .dea | .andImm _ | .andZp _ | .andZpx _ | .andAbs _ | .andAbsx _ | .andAbsy _
  | .andIzx _ | .andIzy _ | .andIzp _ | .oraImm _ | .oraZp _ | .oraZpx _ | .oraAbs _ | .oraAbsx _
  | .oraAbsy _ | .oraIzx _ | .oraIzy _ | .oraIzp _ | .eorImm _ | .eorZp _ | .eorZpx _ | .eorAbs _
  | .eorAbsx _ | .eorAbsy _ | .eorIzx _ | .eorIzy _ | .eorIzp _ | .bitImm _ | .bitZp _ | .bitZpx _
  | .bitAbs _ | .bitAbsx _ | .trbZp _ | .trbAbs _ | .tsbZp _ | .tsbAbs _ | .aslAcc | .aslZp _
  | .aslZpx _ | .aslAbs _ | .aslAbsx _ | .lsrAcc | .lsrZp _ | .lsrZpx _ | .lsrAbs _ | .lsrAbsx _
  | .rolAcc | .rolZp _ | .rolZpx _ | .rolAbs _ | .rolAbsx _ | .rorAcc | .rorZp _ | .rorZpx _
  | .rorAbs _ | .rorAbsx _ | .jmpAbs _ | .jmpInd _ | .jmpIax _ | .jsr _ | .rts | .bcc _
  | .bcs _ | .beq _ | .bne _ | .bmi _ | .bpl _ | .bvc _ | .bvs _ | .bra _
  | .pha | .pla | .phx | .plx | .phy | .ply | .php | .plp
  | .clc | .sec | .cli | .sei | .cld | .sed | .clv | .nop
  | .brk | .rti => true

/-- `i` is an instruction some opcode byte stands for. -/
abbrev WellFormed (i : Instr) : Prop := i.wellFormed = true

end Sys2Proof
end

