-- ==== Sys2Proof/Decode.lean ====
section
/-! DEFINITION. Decoding and encoding (spec 30). Byte order helpers first, then the decoder, which reads the opcode map
of 30 R104 as a function of the opcode byte alone (30 R100, R108), then the encoder, written from the table by mnemonic
of 30 R105, and the form in which the host asks for a decoding. The opcode bytes are those of the table, which the spec
itself marks as general knowledge (log entry 14). -/

namespace Sys2Proof

/-- `h:l`, the 16-bit value with high byte `h` and low byte `l` (00 R8). -/
def word (h l : Byte) : Addr := h ++ l

/-- The low byte of a 16-bit value. -/
def loByte (w : Addr) : Byte := w.extractLsb' 0 8

/-- The high byte of a 16-bit value. -/
def hiByte (w : Addr) : Byte := w.extractLsb' 8 8

/-- Why a byte sequence is no instruction. Every opcode byte is assigned (30 R102), so only missing bytes can be the reason. -/
inductive DecodeError
  /-- there is no opcode byte -/
  | empty
  /-- the opcode `op` needs more operand bytes than there are -/
  | truncated (op : Byte)
  deriving DecidableEq, Repr

/-- The opcode map of 30 R104: the instruction that opcode `op` stands for, with `n` as its 8-bit operand (format F2)
or `w` as its 16-bit operand (format F3) where it has one (30 R101, R103). -/
def assemble (op n : Byte) (w : Addr) : Instr :=
  match op.toNat with
  | 0x00 => .brk
  | 0x01 => .oraIzx n
  | 0x04 => .tsbZp n
  | 0x05 => .oraZp n
  | 0x06 => .aslZp n
  | 0x08 => .php
  | 0x09 => .oraImm n
  | 0x0A => .aslAcc
  | 0x0C => .tsbAbs w
  | 0x0D => .oraAbs w
  | 0x0E => .aslAbs w
  | 0x10 => .bpl n
  | 0x11 => .oraIzy n
  | 0x12 => .oraIzp n
  | 0x14 => .trbZp n
  | 0x15 => .oraZpx n
  | 0x16 => .aslZpx n
  | 0x18 => .clc
  | 0x19 => .oraAbsy w
  | 0x1A => .ina
  | 0x1C => .trbAbs w
  | 0x1D => .oraAbsx w
  | 0x1E => .aslAbsx w
  | 0x20 => .jsr w
  | 0x21 => .andIzx n
  | 0x24 => .bitZp n
  | 0x25 => .andZp n
  | 0x26 => .rolZp n
  | 0x28 => .plp
  | 0x29 => .andImm n
  | 0x2A => .rolAcc
  | 0x2C => .bitAbs w
  | 0x2D => .andAbs w
  | 0x2E => .rolAbs w
  | 0x30 => .bmi n
  | 0x31 => .andIzy n
  | 0x32 => .andIzp n
  | 0x34 => .bitZpx n
  | 0x35 => .andZpx n
  | 0x36 => .rolZpx n
  | 0x38 => .sec
  | 0x39 => .andAbsy w
  | 0x3A => .dea
  | 0x3C => .bitAbsx w
  | 0x3D => .andAbsx w
  | 0x3E => .rolAbsx w
  | 0x40 => .rti
  | 0x41 => .eorIzx n
  | 0x45 => .eorZp n
  | 0x46 => .lsrZp n
  | 0x48 => .pha
  | 0x49 => .eorImm n
  | 0x4A => .lsrAcc
  | 0x4C => .jmpAbs w
  | 0x4D => .eorAbs w
  | 0x4E => .lsrAbs w
  | 0x50 => .bvc n
  | 0x51 => .eorIzy n
  | 0x52 => .eorIzp n
  | 0x55 => .eorZpx n
  | 0x56 => .lsrZpx n
  | 0x58 => .cli
  | 0x59 => .eorAbsy w
  | 0x5A => .phy
  | 0x5D => .eorAbsx w
  | 0x5E => .lsrAbsx w
  | 0x60 => .rts
  | 0x61 => .adcIzx n
  | 0x64 => .stzZp n
  | 0x65 => .adcZp n
  | 0x66 => .rorZp n
  | 0x68 => .pla
  | 0x69 => .adcImm n
  | 0x6A => .rorAcc
  | 0x6C => .jmpInd w
  | 0x6D => .adcAbs w
  | 0x6E => .rorAbs w
  | 0x70 => .bvs n
  | 0x71 => .adcIzy n
  | 0x72 => .adcIzp n
  | 0x74 => .stzZpx n
  | 0x75 => .adcZpx n
  | 0x76 => .rorZpx n
  | 0x78 => .sei
  | 0x79 => .adcAbsy w
  | 0x7A => .ply
  | 0x7C => .jmpIax w
  | 0x7D => .adcAbsx w
  | 0x7E => .rorAbsx w
  | 0x80 => .bra n
  | 0x81 => .staIzx n
  | 0x84 => .styZp n
  | 0x85 => .staZp n
  | 0x86 => .stxZp n
  | 0x88 => .dey
  | 0x89 => .bitImm n
  | 0x8A => .txa
  | 0x8C => .styAbs w
  | 0x8D => .staAbs w
  | 0x8E => .stxAbs w
  | 0x90 => .bcc n
  | 0x91 => .staIzy n
  | 0x92 => .staIzp n
  | 0x94 => .styZpx n
  | 0x95 => .staZpx n
  | 0x96 => .stxZpy n
  | 0x98 => .tya
  | 0x99 => .staAbsy w
  | 0x9A => .txs
  | 0x9C => .stzAbs w
  | 0x9D => .staAbsx w
  | 0x9E => .stzAbsx w
  | 0xA0 => .ldyImm n
  | 0xA1 => .ldaIzx n
  | 0xA2 => .ldxImm n
  | 0xA4 => .ldyZp n
  | 0xA5 => .ldaZp n
  | 0xA6 => .ldxZp n
  | 0xA8 => .tay
  | 0xA9 => .ldaImm n
  | 0xAA => .tax
  | 0xAC => .ldyAbs w
  | 0xAD => .ldaAbs w
  | 0xAE => .ldxAbs w
  | 0xB0 => .bcs n
  | 0xB1 => .ldaIzy n
  | 0xB2 => .ldaIzp n
  | 0xB4 => .ldyZpx n
  | 0xB5 => .ldaZpx n
  | 0xB6 => .ldxZpy n
  | 0xB8 => .clv
  | 0xB9 => .ldaAbsy w
  | 0xBA => .tsx
  | 0xBC => .ldyAbsx w
  | 0xBD => .ldaAbsx w
  | 0xBE => .ldxAbsy w
  | 0xC0 => .cpyImm n
  | 0xC1 => .cmpIzx n
  | 0xC4 => .cpyZp n
  | 0xC5 => .cmpZp n
  | 0xC6 => .decZp n
  | 0xC8 => .iny
  | 0xC9 => .cmpImm n
  | 0xCA => .dex
  | 0xCC => .cpyAbs w
  | 0xCD => .cmpAbs w
  | 0xCE => .decAbs w
  | 0xD0 => .bne n
  | 0xD1 => .cmpIzy n
  | 0xD2 => .cmpIzp n
  | 0xD5 => .cmpZpx n
  | 0xD6 => .decZpx n
  | 0xD8 => .cld
  | 0xD9 => .cmpAbsy w
  | 0xDA => .phx
  | 0xDD => .cmpAbsx w
  | 0xDE => .decAbsx w
  | 0xE0 => .cpxImm n
  | 0xE1 => .sbcIzx n
  | 0xE4 => .cpxZp n
  | 0xE5 => .sbcZp n
  | 0xE6 => .incZp n
  | 0xE8 => .inx
  | 0xE9 => .sbcImm n
  | 0xEA => .nop
  | 0xEC => .cpxAbs w
  | 0xED => .sbcAbs w
  | 0xEE => .incAbs w
  | 0xF0 => .beq n
  | 0xF1 => .sbcIzy n
  | 0xF2 => .sbcIzp n
  | 0xF5 => .sbcZpx n
  | 0xF6 => .incZpx n
  | 0xF8 => .sed
  | 0xF9 => .sbcAbsy w
  | 0xFA => .plx
  | 0xFD => .sbcAbsx w
  | 0xFE => .incAbsx w
  | _ => .unknown op

/-- The addressing-mode tag of an instruction's row. -/
def Instr.mode : Instr → Mode
  | .tax | .tay | .txa | .tya | .tsx | .txs | .inx | .iny | .dex
  | .dey | .rts | .pha | .pla | .phx | .plx | .phy | .ply | .php
  | .plp | .clc | .sec | .cli | .sei | .cld | .sed | .clv | .nop
  | .brk | .rti => .imp
  | .ina | .dea | .aslAcc | .lsrAcc | .rolAcc | .rorAcc => .acc
  | .ldaImm _ | .ldxImm _ | .ldyImm _ | .adcImm _ | .sbcImm _ | .cmpImm _ | .cpxImm _ | .cpyImm _ | .andImm _
  | .oraImm _ | .eorImm _ | .bitImm _ => .imm
  | .ldaZp _ | .ldxZp _ | .ldyZp _ | .staZp _ | .stxZp _ | .styZp _ | .stzZp _ | .adcZp _ | .sbcZp _
  | .cmpZp _ | .cpxZp _ | .cpyZp _ | .incZp _ | .decZp _ | .andZp _ | .oraZp _ | .eorZp _ | .bitZp _
  | .trbZp _ | .tsbZp _ | .aslZp _ | .lsrZp _ | .rolZp _ | .rorZp _ => .zp
  | .ldaZpx _ | .ldyZpx _ | .staZpx _ | .styZpx _ | .stzZpx _ | .adcZpx _ | .sbcZpx _ | .cmpZpx _ | .incZpx _
  | .decZpx _ | .andZpx _ | .oraZpx _ | .eorZpx _ | .bitZpx _ | .aslZpx _ | .lsrZpx _ | .rolZpx _ | .rorZpx _ => .zpx
  | .ldxZpy _ | .stxZpy _ => .zpy
  | .ldaAbs _ | .ldxAbs _ | .ldyAbs _ | .staAbs _ | .stxAbs _ | .styAbs _ | .stzAbs _ | .adcAbs _ | .sbcAbs _
  | .cmpAbs _ | .cpxAbs _ | .cpyAbs _ | .incAbs _ | .decAbs _ | .andAbs _ | .oraAbs _ | .eorAbs _ | .bitAbs _
  | .trbAbs _ | .tsbAbs _ | .aslAbs _ | .lsrAbs _ | .rolAbs _ | .rorAbs _ | .jmpAbs _ | .jsr _ => .abs
  | .ldaAbsx _ | .ldyAbsx _ | .staAbsx _ | .stzAbsx _ | .adcAbsx _ | .sbcAbsx _ | .cmpAbsx _ | .incAbsx _ | .decAbsx _
  | .andAbsx _ | .oraAbsx _ | .eorAbsx _ | .bitAbsx _ | .aslAbsx _ | .lsrAbsx _ | .rolAbsx _ | .rorAbsx _ => .absx
  | .ldaAbsy _ | .ldxAbsy _ | .staAbsy _ | .adcAbsy _ | .sbcAbsy _ | .cmpAbsy _ | .andAbsy _ | .oraAbsy _ | .eorAbsy _ => .absy
  | .ldaIzx _ | .staIzx _ | .adcIzx _ | .sbcIzx _ | .cmpIzx _ | .andIzx _ | .oraIzx _ | .eorIzx _ => .izx
  | .ldaIzy _ | .staIzy _ | .adcIzy _ | .sbcIzy _ | .cmpIzy _ | .andIzy _ | .oraIzy _ | .eorIzy _ => .izy
  | .ldaIzp _ | .staIzp _ | .adcIzp _ | .sbcIzp _ | .cmpIzp _ | .andIzp _ | .oraIzp _ | .eorIzp _ => .izp
  | .bcc _ | .bcs _ | .beq _ | .bne _ | .bmi _ | .bpl _ | .bvc _ | .bvs _ | .bra _ => .rel
  | .jmpInd _ => .ind
  | .jmpIax _ => .iax
  | .unknown _ => .unknown

/-- The length of an instruction of each mode, in bytes (30 R101, R102). -/
def Mode.length : Mode → Nat
  | .imp | .acc | .unknown => 1
  | .imm | .zp | .zpx | .zpy | .izx | .izy | .izp | .rel => 2
  | .abs | .absx | .absy | .ind | .iax => 3

/-- The length of an instruction, in bytes. -/
def Instr.length (i : Instr) : Nat := i.mode.length

/-- The length the opcode byte alone determines (30 R100). -/
def opcodeLength (op : Byte) : Nat := (assemble op 0 0).length

/-- The decoder: the instruction a byte sequence begins with, and the bytes after it; rejects by name. -/
def decode : List Byte → Except DecodeError (Instr × List Byte)
  | [] => .error .empty
  | op :: rest =>
    match opcodeLength op, rest with
    | 1, bs => .ok (assemble op 0 0, bs)
    | 2, n :: bs => .ok (assemble op n 0, bs)
    | 3, l :: h :: bs => .ok (assemble op 0 (word h l), bs)
    | _, _ => .error (.truncated op)

/-- The opcode byte of an instruction, by mnemonic (30 R105). -/
def Instr.opcode : Instr → Byte
  | .ldaImm _ => 0xA9
  | .ldaZp _ => 0xA5
  | .ldaZpx _ => 0xB5
  | .ldaAbs _ => 0xAD
  | .ldaAbsx _ => 0xBD
  | .ldaAbsy _ => 0xB9
  | .ldaIzx _ => 0xA1
  | .ldaIzy _ => 0xB1
  | .ldaIzp _ => 0xB2
  | .ldxImm _ => 0xA2
  | .ldxZp _ => 0xA6
  | .ldxZpy _ => 0xB6
  | .ldxAbs _ => 0xAE
  | .ldxAbsy _ => 0xBE
  | .ldyImm _ => 0xA0
  | .ldyZp _ => 0xA4
  | .ldyZpx _ => 0xB4
  | .ldyAbs _ => 0xAC
  | .ldyAbsx _ => 0xBC
  | .staZp _ => 0x85
  | .staZpx _ => 0x95
  | .staAbs _ => 0x8D
  | .staAbsx _ => 0x9D
  | .staAbsy _ => 0x99
  | .staIzx _ => 0x81
  | .staIzy _ => 0x91
  | .staIzp _ => 0x92
  | .stxZp _ => 0x86
  | .stxZpy _ => 0x96
  | .stxAbs _ => 0x8E
  | .styZp _ => 0x84
  | .styZpx _ => 0x94
  | .styAbs _ => 0x8C
  | .stzZp _ => 0x64
  | .stzZpx _ => 0x74
  | .stzAbs _ => 0x9C
  | .stzAbsx _ => 0x9E
  | .tax => 0xAA
  | .tay => 0xA8
  | .txa => 0x8A
  | .tya => 0x98
  | .tsx => 0xBA
  | .txs => 0x9A
  | .adcImm _ => 0x69
  | .adcZp _ => 0x65
  | .adcZpx _ => 0x75
  | .adcAbs _ => 0x6D
  | .adcAbsx _ => 0x7D
  | .adcAbsy _ => 0x79
  | .adcIzx _ => 0x61
  | .adcIzy _ => 0x71
  | .adcIzp _ => 0x72
  | .sbcImm _ => 0xE9
  | .sbcZp _ => 0xE5
  | .sbcZpx _ => 0xF5
  | .sbcAbs _ => 0xED
  | .sbcAbsx _ => 0xFD
  | .sbcAbsy _ => 0xF9
  | .sbcIzx _ => 0xE1
  | .sbcIzy _ => 0xF1
  | .sbcIzp _ => 0xF2
  | .cmpImm _ => 0xC9
  | .cmpZp _ => 0xC5
  | .cmpZpx _ => 0xD5
  | .cmpAbs _ => 0xCD
  | .cmpAbsx _ => 0xDD
  | .cmpAbsy _ => 0xD9
  | .cmpIzx _ => 0xC1
  | .cmpIzy _ => 0xD1
  | .cmpIzp _ => 0xD2
  | .cpxImm _ => 0xE0
  | .cpxZp _ => 0xE4
  | .cpxAbs _ => 0xEC
  | .cpyImm _ => 0xC0
  | .cpyZp _ => 0xC4
  | .cpyAbs _ => 0xCC
  | .incZp _ => 0xE6
  | .incZpx _ => 0xF6
  | .incAbs _ => 0xEE
  | .incAbsx _ => 0xFE
  | .decZp _ => 0xC6
  | .decZpx _ => 0xD6
  | .decAbs _ => 0xCE
  | .decAbsx _ => 0xDE
  | .inx => 0xE8
  | .iny => 0xC8
  | .dex => 0xCA
  | .dey => 0x88
  | .ina => 0x1A
  | .dea => 0x3A
  | .andImm _ => 0x29
  | .andZp _ => 0x25
  | .andZpx _ => 0x35
  | .andAbs _ => 0x2D
  | .andAbsx _ => 0x3D
  | .andAbsy _ => 0x39
  | .andIzx _ => 0x21
  | .andIzy _ => 0x31
  | .andIzp _ => 0x32
  | .oraImm _ => 0x09
  | .oraZp _ => 0x05
  | .oraZpx _ => 0x15
  | .oraAbs _ => 0x0D
  | .oraAbsx _ => 0x1D
  | .oraAbsy _ => 0x19
  | .oraIzx _ => 0x01
  | .oraIzy _ => 0x11
  | .oraIzp _ => 0x12
  | .eorImm _ => 0x49
  | .eorZp _ => 0x45
  | .eorZpx _ => 0x55
  | .eorAbs _ => 0x4D
  | .eorAbsx _ => 0x5D
  | .eorAbsy _ => 0x59
  | .eorIzx _ => 0x41
  | .eorIzy _ => 0x51
  | .eorIzp _ => 0x52
  | .bitImm _ => 0x89
  | .bitZp _ => 0x24
  | .bitZpx _ => 0x34
  | .bitAbs _ => 0x2C
  | .bitAbsx _ => 0x3C
  | .trbZp _ => 0x14
  | .trbAbs _ => 0x1C
  | .tsbZp _ => 0x04
  | .tsbAbs _ => 0x0C
  | .aslAcc => 0x0A
  | .aslZp _ => 0x06
  | .aslZpx _ => 0x16
  | .aslAbs _ => 0x0E
  | .aslAbsx _ => 0x1E
  | .lsrAcc => 0x4A
  | .lsrZp _ => 0x46
  | .lsrZpx _ => 0x56
  | .lsrAbs _ => 0x4E
  | .lsrAbsx _ => 0x5E
  | .rolAcc => 0x2A
  | .rolZp _ => 0x26
  | .rolZpx _ => 0x36
  | .rolAbs _ => 0x2E
  | .rolAbsx _ => 0x3E
  | .rorAcc => 0x6A
  | .rorZp _ => 0x66
  | .rorZpx _ => 0x76
  | .rorAbs _ => 0x6E
  | .rorAbsx _ => 0x7E
  | .jmpAbs _ => 0x4C
  | .jmpInd _ => 0x6C
  | .jmpIax _ => 0x7C
  | .jsr _ => 0x20
  | .rts => 0x60
  | .bcc _ => 0x90
  | .bcs _ => 0xB0
  | .beq _ => 0xF0
  | .bne _ => 0xD0
  | .bmi _ => 0x30
  | .bpl _ => 0x10
  | .bvc _ => 0x50
  | .bvs _ => 0x70
  | .bra _ => 0x80
  | .pha => 0x48
  | .pla => 0x68
  | .phx => 0xDA
  | .plx => 0xFA
  | .phy => 0x5A
  | .ply => 0x7A
  | .php => 0x08
  | .plp => 0x28
  | .clc => 0x18
  | .sec => 0x38
  | .cli => 0x58
  | .sei => 0x78
  | .cld => 0xD8
  | .sed => 0xF8
  | .clv => 0xB8
  | .nop => 0xEA
  | .brk => 0x00
  | .rti => 0x40
  | .unknown op => op

/-- The operand bytes of an instruction, in ascending address order: the low byte of a 16-bit operand first (30 R101). -/
def Instr.operandBytes : Instr → List Byte
  | .tax | .tay | .txa | .tya | .tsx | .txs | .inx | .iny | .dex
  | .dey | .ina | .dea | .aslAcc | .lsrAcc | .rolAcc | .rorAcc | .rts | .pha
  | .pla | .phx | .plx | .phy | .ply | .php | .plp | .clc | .sec
  | .cli | .sei | .cld | .sed | .clv | .nop | .brk | .rti | .unknown _ => []
  | .ldaImm n | .ldaZp n | .ldaZpx n | .ldaIzx n | .ldaIzy n | .ldaIzp n | .ldxImm n | .ldxZp n | .ldxZpy n
  | .ldyImm n | .ldyZp n | .ldyZpx n | .staZp n | .staZpx n | .staIzx n | .staIzy n | .staIzp n | .stxZp n
  | .stxZpy n | .styZp n | .styZpx n | .stzZp n | .stzZpx n | .adcImm n | .adcZp n | .adcZpx n | .adcIzx n
  | .adcIzy n | .adcIzp n | .sbcImm n | .sbcZp n | .sbcZpx n | .sbcIzx n | .sbcIzy n | .sbcIzp n | .cmpImm n
  | .cmpZp n | .cmpZpx n | .cmpIzx n | .cmpIzy n | .cmpIzp n | .cpxImm n | .cpxZp n | .cpyImm n | .cpyZp n
  | .incZp n | .incZpx n | .decZp n | .decZpx n | .andImm n | .andZp n | .andZpx n | .andIzx n | .andIzy n
  | .andIzp n | .oraImm n | .oraZp n | .oraZpx n | .oraIzx n | .oraIzy n | .oraIzp n | .eorImm n | .eorZp n
  | .eorZpx n | .eorIzx n | .eorIzy n | .eorIzp n | .bitImm n | .bitZp n | .bitZpx n | .trbZp n | .tsbZp n
  | .aslZp n | .aslZpx n | .lsrZp n | .lsrZpx n | .rolZp n | .rolZpx n | .rorZp n | .rorZpx n | .bcc n
  | .bcs n | .beq n | .bne n | .bmi n | .bpl n | .bvc n | .bvs n | .bra n => [n]
  | .ldaAbs w | .ldaAbsx w | .ldaAbsy w | .ldxAbs w | .ldxAbsy w | .ldyAbs w | .ldyAbsx w | .staAbs w | .staAbsx w
  | .staAbsy w | .stxAbs w | .styAbs w | .stzAbs w | .stzAbsx w | .adcAbs w | .adcAbsx w | .adcAbsy w | .sbcAbs w
  | .sbcAbsx w | .sbcAbsy w | .cmpAbs w | .cmpAbsx w | .cmpAbsy w | .cpxAbs w | .cpyAbs w | .incAbs w | .incAbsx w
  | .decAbs w | .decAbsx w | .andAbs w | .andAbsx w | .andAbsy w | .oraAbs w | .oraAbsx w | .oraAbsy w | .eorAbs w
  | .eorAbsx w | .eorAbsy w | .bitAbs w | .bitAbsx w | .trbAbs w | .tsbAbs w | .aslAbs w | .aslAbsx w | .lsrAbs w
  | .lsrAbsx w | .rolAbs w | .rolAbsx w | .rorAbs w | .rorAbsx w | .jmpAbs w | .jmpInd w | .jmpIax w | .jsr w => [loByte w, hiByte w]

/-- The encoder: the bytes of an instruction at ascending addresses. -/
def encode (i : Instr) : List Byte := i.opcode :: i.operandBytes

/-- The three bytes at the front of an instruction whose bits, below bit `nbits`, are those of `w`, as
spec/opcode_table.json numbers them: bit 0 is the least significant bit of the first byte, and every bit from `nbits`
on is 0. Three bytes are the longest instruction (30 R100). -/
def tableWordBytes (nbits w : Nat) : List Byte :=
  let v := w % 2 ^ nbits
  [BitVec.ofNat 8 v, BitVec.ofNat 8 (v / 256), BitVec.ofNat 8 (v / 65536)]

/-- The instruction the decoder reads from a word of spec/opcode_table.json. -/
def decodeTableWord (nbits w : Nat) : Option Instr :=
  match decode (tableWordBytes nbits w) with
  | .ok (i, _) => some i
  | .error _ => none

end Sys2Proof
end

