-- ==== Sys2Proof/Machine/Memory.lean ====
section
/-! DEFINITION. Memories in canonical form (spec 10 R30, R31; 20 R55, R56): what an unlisted address reads as, reading,
writing, and the two memories of the machine. -/

namespace Sys2Proof.Machine

/-- The byte at address `a` of a memory whose unlisted addresses read as `dflt`. -/
def Memory.read (dflt : Nat → Byte) (m : Memory) (a : Nat) : Byte :=
  match m with
  | [] => dflt a
  | (k, v) :: rest => if k = a then v else Memory.read dflt rest a

/-- `m` with a cell for `a` put in its place. -/
def Memory.insert (m : Memory) (a : Nat) (v : Byte) : Memory :=
  match m with
  | [] => [(a, v)]
  | (k, w) :: rest => if a < k then (a, v) :: (k, w) :: rest else (k, w) :: Memory.insert rest a v

/-- `m` with no cell for `a`. -/
def Memory.erase (m : Memory) (a : Nat) : Memory := m.filter fun c => c.1 != a

/-- Write `v` at address `a`: an entry equal to what an unlisted address reads as is not kept. -/
def Memory.write (dflt : Nat → Byte) (m : Memory) (a : Nat) (v : Byte) : Memory :=
  if v = dflt a then m.erase a else (m.erase a).insert a v

/-- The canonical form of a memory of `size` bytes: addresses strictly rising, each in the memory, no entry equal to
what an unlisted address reads as. -/
abbrev Memory.wf (dflt : Nat → Byte) (size : Nat) (m : Memory) : Prop :=
  m.Pairwise (fun c d => c.1 < d.1) ∧ ∀ c ∈ m, c.1 < size ∧ c.2 ≠ dflt c.1

/-- The 8 KiB hi-res pages at 0x2000 and 0xA000 (48 R293). -/
def isHiresPage (a : Nat) : Bool := (0x2000 ≤ a && a < 0x4000) || (0xA000 ≤ a && a < 0xC000)

/-- What RAM holds after power-on (10 R38, 70 R340): 0x00, and 0xFF in the two hi-res pages. An unlisted RAM address
reads so (log entry 4). -/
def ramDefault (a : Nat) : Byte := if isHiresPage a then 0xFF else 0x00

/-- What an unlisted ROM offset reads as. DESIGN CHOICE (log entry 3): the blank image, every byte 0x00. -/
def romDefault (_ : Nat) : Byte := 0x00

/-- The RAM array of 65,536 bytes (10 R30). -/
def ramSize : Nat := 0x10000

/-- The ROM array of 16,384 bytes (10 R31). -/
def romSize : Nat := 0x4000

/-- `RAM[a]` (10 R30). -/
def State.ramAt (s : State) (a : Nat) : Byte := s.ram.read ramDefault a

/-- `ROM[i]` (10 R31). -/
def State.romAt (s : State) (i : Nat) : Byte := s.rom.read romDefault i

/-- `RAM[a] <- v` (20 R55). -/
def State.writeRam (s : State) (a : Nat) (v : Byte) : State := s.setRam (s.ram.write ramDefault a v)

/-- RAM with every cell 0x00: `RAM.clear()` (20 R55). -/
def clearedRam : Memory :=
  (List.range' 0x2000 0x2000 ++ List.range' 0xA000 0x2000).map fun a => (a, 0x00)

/-- A ROM image as a memory: byte `i` of the list at offset `i`, from offset `i0` on. -/
def romOfImage (i0 : Nat) : List Byte → Memory
  | [] => []
  | b :: bs => if b = romDefault i0 then romOfImage (i0 + 1) bs else (i0, b) :: romOfImage (i0 + 1) bs

end Sys2Proof.Machine
end

