-- ==== Sys2Proof/Machine/Sound.lean ====
section
/-! DEFINITION. The 1-bit speaker (spec 47 R275 to R279): a segment is emitted and the line flipped at every access. -/

namespace Sys2Proof.Machine

/-- One read of `IO_READ_VALUE`: the next free value, and the counter moved on (20 R69; log entry 8). -/
def drawIoByte (s : State) : Byte × State := (Config.ioReadValue s.draws, s.setDraws (s.draws + 1))

/-- A signal to the host (60 R335). -/
def State.emit (s : State) (sig : Signal) : State :=
  s.setOut { s.out with signals := sig :: s.out.signals }

/-- The other value of a one-bit line. -/
def Level.flip : Level → Level
  | .low => .high
  | .high => .low

/-- Samples of a segment of `cycles` cycles: 1 µs a cycle at 16 kHz, rounded down (47 R276, D29). -/
def sampleCount (cycles : Nat) : Nat := cycles * 16 / 1000

/-- The amplitude of a sample: 120 when the line is high, 0 when low (47 R276). -/
def sampleAmplitude : Level → Byte
  | .low => 0
  | .high => 120

/-- `EmitSegment(level, cycles)` (47 R276, R277): the segment is output; its samples are written unless they exceed the
16,000 of the buffer or the sink is disabled or unavailable. -/
def emitSegment (level : Level) (cycles : Nat) (s : State) : State :=
  let out := { s.out with segments := ⟨level, cycles⟩ :: s.out.segments }
  if sampleCount cycles ≤ 16000 && s.snd.enabled && s.snd.available then
    s.setOut { out with samples := ⟨sampleAmplitude level, sampleCount cycles⟩ :: out.samples }
  else s.setOut out

/-- `Sound.access` (47 R275): emit the segment since the last toggle, flip the line, take the time. -/
def soundAccess (s : State) : State :=
  (emitSegment s.snd.line (s.clock - s.snd.last) s).setSnd
    { s.snd with line := s.snd.line.flip, last := s.clock }

/-- `Sound.read` (47 R275, R278). -/
def soundRead (s : State) : Byte × State := drawIoByte (soundAccess s)

/-- `Sound.write`: the value is ignored (47 R275). -/
def soundWrite (s : State) : State := soundAccess s

end Sys2Proof.Machine
end

