-- ==== Sys2Proof/Machine/BankSw.lean ====
section
/-! DEFINITION. BankSW, the bank-switch memory controller (spec 20 R65 to R71). -/

namespace Sys2Proof.Machine

/-- The target bank of a BankSW address (20 R65): the mirror range by `BANKSW_MIRROR_SELECT`. -/
def bankTarget (addr : Addr) : BankMode :=
  if addr = 0xC05A then .rom else if addr = 0xC05B then .ram else Config.bankswMirrorSelect addr

/-- `Switch(t)` (20 R66): the routing of the window is a function of `bankMode` (20 R60), so the switch is this one
write, and nothing when `t` is the current bank. -/
def bankSwitch (t : BankMode) (s : State) : State := if t = s.bankMode then s else s.setBankMode t

/-- `BankSW.read` (20 R65, R69). -/
def bankSwRead (addr : Addr) (s : State) : Byte × State := drawIoByte (bankSwitch (bankTarget addr) s)

/-- `BankSW.write`: the value is ignored (20 R65). -/
def bankSwWrite (addr : Addr) (s : State) : State := bankSwitch (bankTarget addr) s

end Sys2Proof.Machine
end

