-- ==== Sys2Proof/Machine/Keyboard.lean ====
section
/-! DEFINITION. The keyboard matrix scanner, direct variant (spec 47 R250 to R257), and the map from keys to matrix
cells (47 R253, R255). -/

namespace Sys2Proof.Machine

/-- `Keyboard.write` (47 R251). -/
def keyboardWrite (addr : Addr) (v : Byte) (s : State) : State :=
  if 0xC000 ≤ addr.toNat && addr.toNat ≤ 0xC01F then s.setKb { s.kb with kbin := v }
  else if addr = 0xC05F then s.setKb { s.kb with ctrlQuery := true }
  else if addr = 0xC05E then s.setKb { s.kb with ctrlQuery := false }
  else s

/-- The byte a keyboard read returns (47 R252). -/
def keyboardByte (kb : Keyboard) : Byte :=
  if kb.clear then 0x00
  else
    (if kb.kbin = 1#8 <<< kb.row.val then 1#8 <<< kb.col.val else 0x00) |||
    (if kb.ctrlQuery && kb.ctrl then 0x01 else 0x00) |||
    (if kb.kbin = 0x01 && kb.shift then 0x01 else 0x00)

/-- `Keyboard.read`, the same at every keyboard address: the query mode ends (47 R252). -/
def keyboardRead (s : State) : Byte × State :=
  (keyboardByte s.kb, s.setKb { s.kb with ctrlQuery := false })

/-- A key of the host's keyboard: a character key, one of the named keys, or a key with no mapping. -/
inductive Key
  | char (c : Char)
  | left
  | right
  | up
  | down
  | enter
  | backspace
  | other (code : Nat)
  deriving DecidableEq, Repr

/-- The key matrix (47 R253): row by row, column 0 first; `none` where the cell has no key. -/
def keyMatrix : List (List (Option Key)) :=
  [[none, some (.char 'B'), some (.char 'V'), some (.char 'C'), some (.char 'X'), some (.char 'Z')],
   [none, some (.char 'G'), some (.char 'F'), some (.char 'D'), some (.char 'S'), some (.char 'A')],
   [some (.char ' '), some (.char 'T'), some (.char 'R'), some (.char 'E'), some (.char 'W'), some (.char 'Q')],
   [some .left, some (.char '5'), some (.char '4'), some (.char '3'), some (.char '2'), some (.char '1')]] ++
  [[some .right, some (.char '6'), some (.char '7'), some (.char '8'), some (.char '9'), some (.char '0')],
   [some .down, some (.char 'Y'), some (.char 'U'), some (.char 'I'), some (.char 'O'), some (.char 'P')],
   [some .up, some (.char 'H'), some (.char 'J'), some (.char 'K'), some (.char 'L'), some (.char ':')],
   [some .enter, some (.char 'N'), some (.char 'M'), some (.char ','), some (.char '.'), some (.char '?')]]

/-- The 48 cells in order, row 0 first. -/
def matrixCells : List (Fin 8 × Fin 6) :=
  (List.finRange 8).flatMap fun r => (List.finRange 6).map fun c => (r, c)

/-- The key at a cell. -/
def keyAt (r : Fin 8) (c : Fin 6) : Option Key := (keyMatrix.getD r.val []).getD c.val none

/-- The cell of a key of the matrix, if it has one. -/
def cellOf (k : Key) : Option (Fin 8 × Fin 6) := matrixCells.find? fun rc => keyAt rc.1 rc.2 == some k

/-- The fifteen symbols that share a letter's or digit's cell (47 R255). -/
def symbolKeys : List Char := ['!', '"', '#', '$', '%', '&', '/', '(', ')', '=', '-', '+', '*', '^', '@']

/-- The 26 letter keys and 10 digit keys, in the order `Config.keymap` numbers them. -/
def alphanumericKeys : List Char := "ABCDEFGHIJKLMNOPQRSTUVWXYZ0123456789".toList

/-- `KeyToMatrix` (47 R255): letters by upper case, Backspace as LEFT, symbols by `KEYMAP` with SHIFT; `none` for a key
with no mapping. -/
def keyToMatrix : Key → Option (Fin 8 × Fin 6 × Bool)
  | .char c =>
    match symbolKeys.findFinIdx? (· == c) with
    | some i => (cellOf (.char (alphanumericKeys.getD (Config.keymap i).val 'A'))).map fun rc => (rc.1, rc.2, true)
    | none => (cellOf (.char c.toUpper)).map fun rc => (rc.1, rc.2, false)
  | .backspace => (cellOf .left).map fun rc => (rc.1, rc.2, false)
  | k => (cellOf k).map fun rc => (rc.1, rc.2, false)

/-- `pushKey` (47 R254): an unmapped key is ignored. -/
def pushKey (k : Key) (ctrl shift : Bool) (s : State) : State :=
  match keyToMatrix k with
  | none => s
  | some (r, c, sh) =>
    s.setKb { s.kb with row := r, col := c, shift := shift || sh, ctrl := ctrl, clear := false }

/-- `releaseKey` (47 R254): the modifiers go with the key. -/
def releaseKey (s : State) : State := s.setKb { s.kb with clear := true, shift := false, ctrl := false }

end Sys2Proof.Machine
end

