-- ==== Sys2Proof/Machine/Raster.lean ====
section
/-! DEFINITION. The video block's softswitches, address generator, rasterizer and palettes (spec 48 R290 to R302, less
the refresh itself, which reads the bus). -/

namespace Sys2Proof.Machine

/-- The effect of any access to a video address (48 R290); at an address other than its four, nothing (48 R291). -/
def videoAccess (addr : Addr) (s : State) : State :=
  if addr = 0xC050 then s.setVid { s.vid with colorMode := .color }
  else if addr = 0xC051 then s.setVid { s.vid with colorMode := .mono }
  else if addr = 0xC054 then s.setVid { s.vid with hiresPage := .page1 }
  else if addr = 0xC055 then s.setVid { s.vid with hiresPage := .page2 }
  else s

/-- A video read returns 0xFF (48 R291). -/
def videoSwitchRead (addr : Addr) (s : State) : Byte × State := (0xFF, videoAccess addr s)

/-- `hiresBase` (48 R290). -/
def HiresPage.base : HiresPage → Nat
  | .page1 => 0x2000
  | .page2 => 0xA000

/-- `TextLineAddress`, the interleaved table (48 R294). -/
def textLineAddress : List Nat :=
  [0x0000, 0x0080, 0x0100, 0x0180, 0x0200, 0x0280, 0x0300, 0x0380] ++
  [0x0028, 0x00A8, 0x0128, 0x01A8, 0x0228, 0x02A8, 0x0328, 0x03A8] ++
  [0x0050, 0x00D0, 0x0150, 0x01D0, 0x0250, 0x02D0, 0x0350, 0x03D0]

/-- `LineAddr(y)` (48 R293). -/
def lineAddr (page : HiresPage) (y : Nat) : Nat :=
  page.base + textLineAddress.getD (y / 8) 0 + 0x400 * (y % 8)

/-- `ByteAddr(y, k)` (48 R293). -/
def byteAddr (page : HiresPage) (y k : Nat) : Nat := lineAddr page y + k

/-- `COLOR_PALETTE` (48 R301). -/
def colorPalette : List Rgb :=
  [0x000000, 0xDD0033, 0x000099, 0xDD22DD, 0x007722, 0x555555, 0x2222FF, 0x66AAFF] ++
  [0x885500, 0xFF6600, 0xAAAAAA, 0xFF9988, 0x11DD00, 0xFFFF00, 0x44FF99, 0xFFFFFF]

/-- `MONO_PALETTE` (48 R301). -/
def monoPalette : List Rgb :=
  [0x000000, 0x0E470E, 0x041204, 0x166E16, 0x0F4A0F, 0x115411, 0x0C3B0C, 0x1F9E1F] ++
  [0x125C12, 0x1B8A1B, 0x22AB22, 0x24B524, 0x1A871A, 0x2DE32D, 0x25BD25, 0xFFFFFF]

/-- An entry of a palette. -/
def paletteEntry (palette : List Rgb) (i : Nat) : Rgb := palette.getD i 0x000000

/-- The colour of a column bit in MONO mode, in both of its framebuffer pixels (48 R299). -/
def monoPixel (bit : Bool) : Rgb := paletteEntry monoPalette (if bit then 15 else 0)

/-- The palette index of pixel `i` of a byte in COLOR mode (48 R300): fixed for the bytes 0x00 and 0x7F in every context
and for the leftmost pixel of 0x55 before 0x2A at the start of a line, free elsewhere (log entry 12). -/
def colorIndex (b : Byte) (pp nn : BitVec 2) (i : Nat) : Fin 16 :=
  if b = 0x00 then 0
  else if b = 0x7F then 15
  else if b = 0x55 ∧ pp = 0 ∧ nn = 2 ∧ i = 0 then 3
  else Config.colorCell b pp nn i

/-- `ByteCells(mode, b, PP, NN)`: the 14 framebuffer pixels of a byte (48 R298 to R300). -/
def byteCells (mode : ColorMode) (b : Byte) (pp nn : BitVec 2) : Vector Rgb 14 :=
  match mode with
  | .mono => Vector.ofFn fun j => monoPixel (b.getLsbD (j.val / 2))
  | .color => Vector.ofFn fun j => paletteEntry colorPalette (colorIndex b pp nn j.val).val

/-- The cells of byte `k` of a scanline, with `PP` the two trailing column bits of the byte before it and `NN` the two
leading column bits of the byte after it, 0 where there is none (48 R298). -/
def cellsAt (mode : ColorMode) (line : List Byte) (k : Nat) : Vector Rgb 14 :=
  let prev := if k = 0 then 0x00 else line.getD (k - 1) 0x00
  let next := if k = 39 then 0x00 else line.getD (k + 1) 0x00
  byteCells mode (line.getD k 0x00) (prev.extractLsb' 5 2) (next.extractLsb' 0 2)

/-- Pixel `j` of a scanline: 14 pixels per byte (48 R298). -/
def linePixel (mode : ColorMode) (line : List Byte) (j : Nat) : Rgb :=
  (cellsAt mode line (j / 14))[j % 14]'(Nat.mod_lt j (by decide))

/-- `RasterLine(mode, line)`: the 560 pixels of a scanline of 40 bytes (48 R298). -/
def rasterLine (mode : ColorMode) (line : List Byte) : PixelRow := Vector.ofFn fun j => linePixel mode line j.val

/-- The rows are strictly rising: the one form of a framebuffer. -/
abbrev Framebuffer.wf (fb : Framebuffer) : Prop := fb.Pairwise fun d e => d.row < e.row

/-- `FB[r][c]` (10 R36): the pixel drawn last, or the free value of a pixel not drawn yet (93 U8). -/
def Framebuffer.pixel (r : Fin 384) (c : Fin 560) : Framebuffer → Rgb
  | [] => Config.undrawnPixel r c
  | d :: rest => if d.row = r then d.pixels[c] else Framebuffer.pixel r c rest

/-- `FB[r][0..559] <- pixels` (48 R296). -/
def Framebuffer.draw (r : Fin 384) (pixels : PixelRow) : Framebuffer → Framebuffer
  | [] => [⟨r, pixels⟩]
  | d :: rest =>
    if r < d.row then ⟨r, pixels⟩ :: d :: rest
    else if r = d.row then ⟨r, pixels⟩ :: rest
    else d :: Framebuffer.draw r pixels rest

/-- Framebuffer row `r` replaced by `pixels`; there is no row past the 384. -/
def setFbRow (fb : Framebuffer) (r : Nat) (pixels : PixelRow) : Framebuffer :=
  if h : r < 384 then Framebuffer.draw ⟨r, h⟩ pixels fb else fb

/-- A scanline's row in both rows of the framebuffer it covers (48 R302, D32). -/
def drawScanline (fb : Framebuffer) (y : Nat) (pixels : PixelRow) : Framebuffer :=
  setFbRow (setFbRow fb (2 * y) pixels) (2 * y + 1) pixels

end Sys2Proof.Machine
end

