-- ==== Sys2Proof/Machine/Tape.lean ====
section
/-! DEFINITION. The cassette bit-stream reader (spec 47 R260 to R269): the `.ct2` file, its half-wave expansion, the
transport, and playback by reads of 0xC010. -/

namespace Sys2Proof.Machine

/-- A chunk of a `.ct2` file (47 R260). -/
inductive Chunk
  | ca
  | cb
  | da (bytes : List Byte)
  deriving DecidableEq, Repr

/-- The chunks after the magic (47 R260): `none` for a file that ends inside a header or a DA payload. Each chunk takes
at least 4 bytes, so `fuel` of the file's length is enough. -/
def parseChunks : Nat → List Byte → Option (List Chunk)
  | _, [] => some []
  | fuel + 1, h0 :: h1 :: h2 :: h3 :: rest =>
    if h0 = 0x43 ∧ h1 = 0x41 then (parseChunks fuel rest).map (.ca :: ·)
    else if h0 = 0x43 ∧ h1 = 0x42 then (parseChunks fuel rest).map (.cb :: ·)
    else if h0 = 0x44 ∧ h1 = 0x41 then
      let n := h2.toNat + 256 * h3.toNat
      if n ≤ rest.length then (parseChunks fuel (rest.drop n)).map (.da (rest.take n) :: ·) else none
    else parseChunks fuel rest
  | _, _ => none

/-- `ParseCt2` (47 R260): the 4-byte magic is skipped unchecked. -/
def parseCt2 : List Byte → Option (List Chunk)
  | _ :: _ :: _ :: _ :: rest => parseChunks rest.length rest
  | _ => none

/-- The two half-cycles of a bit (47 R261). -/
def expandBit (b : Bool) : List Nat := if b then [500, 500] else [250, 250]

/-- The sixteen half-cycles of a byte, most significant bit first (47 R261). -/
def expandByte (b : Byte) : List Nat := [7, 6, 5, 4, 3, 2, 1, 0].flatMap fun i => expandBit (b.getLsbD i)

/-- `Expand(chunk)` (47 R261): half-cycle durations in CPU cycles. -/
def expandChunk : Chunk → List Nat
  | .ca => (List.replicate Config.caCycles [502, 502]).flatten
  | .cb => [464, 679] ++ (List.replicate Config.cbCycles [679, 679]).flatten ++ [199, 250]
  | .da bytes => bytes.flatMap expandByte

/-- `tapeWave` of a file's chunks (47 R261). -/
def expandWave (chunks : List Chunk) : List Nat := chunks.flatMap expandChunk

/-- `insertTape` (47 R263; 60 R334): a truncated file changes nothing but the error the host sees. -/
def insertTape (file : List Byte) (s : State) : State :=
  match parseCt2 file with
  | none => s.emit .assetMissing
  | some chunks =>
    s.setTape { s.tape with wave := expandWave chunks, head := 0, active := false, play := false, casin := .low }

/-- `play()` (47 R263). -/
def tapePlay (s : State) : State := s.setTape { s.tape with play := true }

/-- `stop()` (47 R263). -/
def tapeStop (s : State) : State := s.setTape { s.tape with play := false, active := false }

/-- The byte CASIN stands for: 0x00 or 0x80 (10 R34). -/
def casinByte : Level → Byte
  | .low => 0x00
  | .high => 0x80

/-- `EndOfTape` (47 R265). -/
def endOfTape (s : State) : State :=
  (s.setTape { s.tape with play := false, active := false }).emit .tapeEnd

/-- Step 1 of playback (47 R265): arm the half-cycle at the playhead if none is armed. -/
def tapeArm (s : State) : State :=
  if s.tape.active then s
  else
    match s.tape.wave[s.tape.head]? with
    | none => endOfTape s
    | some d => s.setTape { s.tape with start := s.clock, casin := .high, armed := d, active := true }

/-- An edge (47 R265 step 2): toggle CASIN, move on, and arm the next duration or end. -/
def tapeEdge (s : State) : State :=
  let t := { s.tape with casin := s.tape.casin.flip, head := s.tape.head + 1, start := s.clock }
  match t.wave[t.head]? with
  | none => endOfTape (s.setTape t)
  | some d => s.setTape { t with armed := d }

/-- Steps 2 and 3 of playback (47 R265): at most one edge, and with `tapeSound` the nested bus read of 0xC030, whose
result is discarded (20 R54; that the speaker's port is what the bus reads there is a law, log entry 31). -/
def tapeAdvance (s : State) : State :=
  if s.tape.active && s.tape.armed < s.clock - s.tape.start then
    let s1 := tapeEdge s
    if s1.tape.sound then (soundRead s1).2 else s1
  else s

/-- `Tape.read(0xC010)` (47 R265): play on, then return CASIN. -/
def tapeReadCasin (s : State) : Byte × State :=
  let s1 := if s.tape.play then tapeAdvance (tapeArm s) else s
  (casinByte s1.tape.casin, s1)

/-- `Tape.read` (47 R265, R268, R269): 0xC010 is CASIN, 0xC020 is redirected to the speaker and returns 0, any other
address returns `IO_READ_VALUE` and changes nothing. -/
def tapeRead (addr : Addr) (s : State) : Byte × State :=
  if addr = 0xC010 then tapeReadCasin s
  else if addr = 0xC020 then (0x00, (soundRead s).2)
  else drawIoByte s

end Sys2Proof.Machine
end

