-- ==== Sys2Proof/Machine/Bus.lean ====
section
/-! DEFINITION. The bus (spec 20): the address decoder `Route`, the read that ORs the devices of an address, the write
that fans out to them, and 16-bit reads in the machine's byte order. -/

namespace Sys2Proof.Machine

/-- The devices attached to the bus (00 R12). -/
inductive Device
  | ram
  | rom
  | bankSw
  | keyboard
  | tape
  | sound
  | video
  deriving DecidableEq, Repr

/-- What BankSW attaches to its window in each mode (20 R60, R66). -/
def windowDevices : BankMode → List Device
  | .rom => [.rom]
  | .ram => [.ram]

/-- `Route(addr)`: the ordered device list of an address (20 R60, R61). -/
def route (bank : BankMode) (addr : Addr) : List Device :=
  let n := addr.toNat
  if n < 0xC000 then [.ram]
  else if n = 0xC010 then [.keyboard, .tape]
  else if n < 0xC020 then [.keyboard]
  else if n < 0xC030 then [.tape]
  else if n < 0xC040 then [.sound]
  else if n < 0xC050 then []
  else if n < 0xC052 then [.video]
  else if n < 0xC054 then [.tape]
  else if n < 0xC056 then [.video]
  else if n < 0xC058 then [.tape]
  else if n < 0xC05A then []
  else if n < 0xC05C then [.bankSw]
  else if n < 0xC05E then []
  else if n < 0xC060 then [.keyboard]
  else if n < 0xC070 then []
  else if n < 0xC072 then [.tape]
  else if n < 0xC080 then []
  else if n < 0xC08C then [.bankSw]
  else if n < Config.windowStart then []
  else windowDevices bank

/-- A device's `read` port (20 R55, R56, R65; 47 R252, R265, R268, R269, R275; 48 R291). -/
def deviceRead (d : Device) (addr : Addr) (s : State) : Byte × State :=
  match d with
  | .ram => (s.ramAt addr.toNat, s)
  | .rom => (s.romAt (addr.toNat - 0xC000), s)
  | .bankSw => bankSwRead addr s
  | .keyboard => keyboardRead s
  | .tape => tapeRead addr s
  | .sound => soundRead s
  | .video => videoSwitchRead addr s

/-- A device's `write` port; ROM and the tape ignore writes (20 R55, R56, R65; 47 R251, R269, R275; 48 R290). -/
def deviceWrite (d : Device) (addr : Addr) (v : Byte) (s : State) : State :=
  match d with
  | .ram => s.writeRam addr.toNat v
  | .rom => s
  | .bankSw => bankSwWrite addr s
  | .keyboard => keyboardWrite addr v s
  | .tape => s
  | .sound => soundWrite s
  | .video => videoAccess addr s

/-- The reads of a device list in attachment order, ORed into `v` (20 R51). -/
def readDevices (ds : List Device) (addr : Addr) (v : Byte) (s : State) : Byte × State :=
  match ds with
  | [] => (v, s)
  | d :: rest => readDevices rest addr (v ||| (deviceRead d addr s).1) (deviceRead d addr s).2

/-- The writes of a device list in attachment order (20 R52). -/
def writeDevices (ds : List Device) (addr : Addr) (v : Byte) (s : State) : State :=
  match ds with
  | [] => s
  | d :: rest => writeDevices rest addr v (deviceWrite d addr v s)

/-- `MemRead(addr, 1)` (20 R51): 0xFF where no device is attached. -/
def memRead (addr : Addr) (s : State) : Byte × State :=
  match route s.bankMode addr with
  | [] => (0xFF, s)
  | d :: rest => readDevices (d :: rest) addr 0x00 s

/-- `MemWrite(addr, 1, v)` (20 R52). -/
def memWrite (addr : Addr) (v : Byte) (s : State) : State := writeDevices (route s.bankMode addr) addr v s

/-- `Read16(addr)`: low byte first, the high byte at the next address modulo 65536 (00 R9, 20 R76). -/
def read16 (addr : Addr) (s : State) : Addr × State :=
  let lo := memRead addr s
  let hi := memRead (addr + 1) lo.2
  (word hi.1 lo.1, hi.2)

end Sys2Proof.Machine
end

