-- ==== Sys2Proof/Machine/Operands.lean ====
section
/-! DEFINITION. Addressing modes (spec 40): the effective address of every memory operand form, with the pointer reads
it makes, and the three ways an operand is used. -/

namespace Sys2Proof.Machine

/-- A zero-page address: the byte extended by a zero high byte (30 R103). -/
def zeroPage (n : Byte) : Addr := n.setWidth 16

/-- A 16-bit address plus an index register, modulo 65536 (40 R127, R128). -/
def indexed (w : Addr) (i : Byte) : Addr := w + i.setWidth 16

/-- The two-byte pointer at zero-page address `z`: low byte first, the high byte from `(z + 1) & 0xFF` (40 R129 to R131). -/
def readPointer (z : Byte) (s : State) : Addr × State :=
  let lo := memRead (zeroPage z) s
  let hi := memRead (zeroPage (z + 1)) lo.2
  (word hi.1 lo.1, hi.2)

/-- `EA_m()` (40 R123 to R131): the effective address, and the state after the pointer reads. Index registers are those
of the state before any of them (40 R135). -/
def effectiveAddress (m : MemOperand) (s : State) : Addr × State :=
  match m with
  | .zp n => (zeroPage n, s)
  | .zpx n => (zeroPage (n + s.x), s)
  | .zpy n => (zeroPage (n + s.y), s)
  | .abs w => (w, s)
  | .absx w => (indexed w s.x, s)
  | .absy w => (indexed w s.y, s)
  | .izx n => readPointer (n + s.x) s
  | .izy n => (indexed (readPointer n s).1 s.y, (readPointer n s).2)
  | .izp n => readPointer n s

/-- `Load(m)` (40 R122, R135): the operand's byte and the state after the reads. -/
def load (o : Operand) (s : State) : Byte × State :=
  match o with
  | .imm n => (n, s)
  | .mem m => memRead (effectiveAddress m s).1 (effectiveAddress m s).2

/-- `Store(m, v)` (40 R135): one data write, no read of the target. -/
def store (m : MemOperand) (v : Byte) (s : State) : State :=
  memWrite (effectiveAddress m s).1 v (effectiveAddress m s).2

/-- `Modify(m, f)` (40 R135) for an operation that gives the new byte and the new status from the old ones: exactly one
read, then one write of the same address, then the status. -/
def modify (m : MemOperand) (f : Byte → Byte → Byte × Byte) (s : State) : State :=
  let ea := effectiveAddress m s
  let old := memRead ea.1 ea.2
  let r := f old.1 old.2.p
  (memWrite ea.1 r.1 old.2).setP r.2

end Sys2Proof.Machine
end

