-- ==== Sys2Proof/Machine/Ops.lean ====
section
/-! DEFINITION. The named operations over registers, the stack and control (spec 40 R120; 45 R220, R221): fetch, push,
pull, the clock, entering an interrupt as one operation, returning from one, the replay of deferred IRQs, the branch,
and the placing of a program's bytes. -/

namespace Sys2Proof.Machine

/-- The end of an instruction or interrupt sequence: its cycles are added to `clock` (10 R27, 70 R350). -/
def tick (cycles : Nat) (s : State) : State := s.setClock (s.clock + cycles)

/-- `Fetch8()` (40 R120). -/
def fetch8 (s : State) : Byte × State :=
  let r := memRead s.pc s
  (r.1, r.2.setPc (s.pc + 1))

/-- Fetch of one whole instruction (30 R100; 40 R120): the opcode, then the operand bytes it alone calls for. -/
def fetchInstr (s : State) : Instr × State :=
  let op := fetch8 s
  match opcodeLength op.1 with
  | 1 => (assemble op.1 0 0, op.2)
  | 2 =>
    let n := fetch8 op.2
    (assemble op.1 n.1 0, n.2)
  | _ =>
    let l := fetch8 op.2
    let h := fetch8 l.2
    (assemble op.1 0 (word h.1 l.1), h.2)

/-- The address the stack pointer designates: page 1 (10 R21). -/
def stackAddr (sp : Byte) : Addr := 0x0100 ||| sp.setWidth 16

/-- `Push(v)`: "stores then decrements" (45 R220). -/
def push (v : Byte) (s : State) : State := (memWrite (stackAddr s.sp) v s).setSp (s.sp - 1)

/-- `Pop()`: "increments then loads" (45 R221). -/
def pop (s : State) : Byte × State := memRead (stackAddr (s.sp + 1)) (s.setSp (s.sp + 1))

/-- A 16-bit push: high byte first (44 R203, 60 R314). -/
def push16 (w : Addr) (s : State) : State := push (loByte w) (push (hiByte w) s)

/-- A 16-bit pull: low byte first (44 R204, 46 R241). -/
def pop16 (s : State) : Addr × State :=
  let lo := pop s
  let hi := pop lo.2
  (word hi.1 lo.1, hi.2)

/-- Entering the handler of NMI, IRQ or BRK (60 R310, R318): push the return address and the status byte, leave `p'` in
`P`, load `PC` from the vector, and charge 7 cycles. -/
def enterInterrupt (ret : Addr) (status p' : Byte) (vector : Addr) (s : State) : State :=
  let s1 := (push status (push16 ret s)).setP p'
  let target := read16 vector s1
  tick 7 (target.2.setPc target.1)

/-- Returning from a handler (46 R241, 60 R321): pull `P`, bit 5 forced and B as pulled, then `PC`, with no +1. -/
def returnFromInterrupt (s : State) : State :=
  let st := pop s
  let ret := pop16 (st.2.setP (statusOfByte st.1))
  ret.2.setPc ret.1

/-- The replay rule after CLI, and after PLP (60 R316): with I clear and an IRQ deferred, one is asserted again. -/
def replayIrq (s : State) : State :=
  if getFlag s.p .i = false ∧ 0 < s.pendingIrq then
    (s.setPendingIrq (s.pendingIrq - 1)).setLatches { s.latches with irq := true }
  else s

/-- A conditional branch (44 R205): `PC` is already the address of the next instruction. -/
def branchIf (cond : Bool) (n : Byte) (s : State) : State :=
  if cond then tick 3 (s.setPc (s.pc + n.signExtend 16)) else tick 2 s

/-- `v` placed at address `addr` of the program's memory: RAM or the ROM image, whichever the bus reads there. The
addresses of devices hold no program. -/
def placeByte (addr : Addr) (v : Byte) (s : State) : State :=
  match route s.bankMode addr with
  | [.ram] => s.writeRam addr.toNat v
  | [.rom] => s.setRom (s.rom.write romDefault (addr.toNat - 0xC000) v)
  | _ => s

/-- `bytes` placed at ascending addresses from `addr` on. -/
def placeBytes (addr : Addr) (bytes : List Byte) (s : State) : State :=
  match bytes with
  | [] => s
  | b :: rest => placeBytes (addr + 1) rest (placeByte addr b s)

/-- The bus reads memory, RAM or ROM alone, at `addr`. -/
def isMemory (bank : BankMode) (addr : Addr) : Bool :=
  route bank addr == [.ram] || route bank addr == [.rom]

end Sys2Proof.Machine
end

