-- ==== Sys2Proof/Machine/Control.lean ====
section
/-! DEFINITION. Jumps, subroutine calls and returns, branches (spec 44). -/

namespace Sys2Proof.Machine

/-- JSR (44 R203): the address of the instruction's last byte is pushed, high byte first. -/
def callSubroutine (target : Addr) (s : State) : State := tick 6 ((push16 (s.pc - 1) s).setPc target)

/-- RTS (44 R204). -/
def returnFromSubroutine (s : State) : State :=
  let r := pop16 s
  tick 6 (r.2.setPc (r.1 + 1))

/-- JMP through a pointer (44 R201, R202; 40 R133, R134): the high byte from `ptr + 1` modulo 65536 (D9). -/
def jumpThrough (ptr : Addr) (cycles : Nat) (s : State) : State :=
  let r := read16 ptr s
  tick cycles (r.2.setPc r.1)

/-- `JMP $hhll` (4C), R200. -/
def execJmpAbs (w : Addr) (s : State) : Result := .next (tick 3 (s.setPc w))

/-- `JMP ($hhll)` (6C), R201. -/
def execJmpInd (w : Addr) (s : State) : Result := .next (jumpThrough w 5 s)

/-- `JMP ($hhll,X)` (7C), R202. -/
def execJmpIax (w : Addr) (s : State) : Result := .next (jumpThrough (indexed w s.x) 6 s)

/-- `JSR $hhll` (20), R203. -/
def execJsr (w : Addr) (s : State) : Result := .next (callSubroutine w s)

/-- `RTS` (60), R204. -/
def execRts (s : State) : Result := .next (returnFromSubroutine s)

/-- `BCC label` (90), R206. -/
def execBcc (n : Byte) (s : State) : Result := .next (branchIf (!getFlag s.p .c) n s)

/-- `BCS label` (B0), R207. -/
def execBcs (n : Byte) (s : State) : Result := .next (branchIf (getFlag s.p .c) n s)

/-- `BEQ label` (F0), R208. -/
def execBeq (n : Byte) (s : State) : Result := .next (branchIf (getFlag s.p .z) n s)

/-- `BNE label` (D0), R209. -/
def execBne (n : Byte) (s : State) : Result := .next (branchIf (!getFlag s.p .z) n s)

/-- `BMI label` (30), R210. -/
def execBmi (n : Byte) (s : State) : Result := .next (branchIf (getFlag s.p .n) n s)

/-- `BPL label` (10), R211. -/
def execBpl (n : Byte) (s : State) : Result := .next (branchIf (!getFlag s.p .n) n s)

/-- `BVC label` (50), R212. -/
def execBvc (n : Byte) (s : State) : Result := .next (branchIf (!getFlag s.p .v) n s)

/-- `BVS label` (70), R213. -/
def execBvs (n : Byte) (s : State) : Result := .next (branchIf (getFlag s.p .v) n s)

/-- `BRA label` (80), R214. -/
def execBra (n : Byte) (s : State) : Result := .next (branchIf true n s)

end Sys2Proof.Machine
end

