-- ==== Sys2Proof/Machine/LoadStore.lean ====
section
/-! DEFINITION. Loads, stores and register transfers (spec 41). -/

namespace Sys2Proof.Machine

/-- A load's register write (41 R140 to R142): the register's update `set`, the byte loaded, and N and Z from it. -/
def loadRegister (set : State → Byte → State) (o : Operand) (cycles : Nat) (s : State) : State :=
  let r := load o s
  tick cycles ((set r.2 r.1).setP (setNZ r.1 r.2.p))

/-- A transfer between registers (41 R147 to R151): 2 cycles, N and Z from the byte moved. -/
def transfer (set : State → Byte → State) (v : Byte) (s : State) : State :=
  tick 2 ((set s v).setP (setNZ v s.p))

/-- A store (41 R143 to R146): no flag changes. -/
def storeByte (m : MemOperand) (v : Byte) (cycles : Nat) (s : State) : State := tick cycles (store m v s)

/-- `LDA #$nn` (A9), R140. -/
def execLdaImm (n : Byte) (s : State) : Result := .next (loadRegister State.setA (.imm n) 2 s)

/-- `LDA $nn` (A5), R140. -/
def execLdaZp (n : Byte) (s : State) : Result := .next (loadRegister State.setA (.mem (.zp n)) 3 s)

/-- `LDA $nn,X` (B5), R140. -/
def execLdaZpx (n : Byte) (s : State) : Result := .next (loadRegister State.setA (.mem (.zpx n)) 4 s)

/-- `LDA $hhll` (AD), R140. -/
def execLdaAbs (w : Addr) (s : State) : Result := .next (loadRegister State.setA (.mem (.abs w)) 4 s)

/-- `LDA $hhll,X` (BD), R140. -/
def execLdaAbsx (w : Addr) (s : State) : Result := .next (loadRegister State.setA (.mem (.absx w)) 4 s)

/-- `LDA $hhll,Y` (B9), R140. -/
def execLdaAbsy (w : Addr) (s : State) : Result := .next (loadRegister State.setA (.mem (.absy w)) 4 s)

/-- `LDA ($nn,X)` (A1), R140. -/
def execLdaIzx (n : Byte) (s : State) : Result := .next (loadRegister State.setA (.mem (.izx n)) 6 s)

/-- `LDA ($nn),Y` (B1), R140. -/
def execLdaIzy (n : Byte) (s : State) : Result := .next (loadRegister State.setA (.mem (.izy n)) 5 s)

/-- `LDA ($nn)` (B2), R140. -/
def execLdaIzp (n : Byte) (s : State) : Result := .next (loadRegister State.setA (.mem (.izp n)) 5 s)

/-- `LDX #$nn` (A2), R141. -/
def execLdxImm (n : Byte) (s : State) : Result := .next (loadRegister State.setX (.imm n) 2 s)

/-- `LDX $nn` (A6), R141. -/
def execLdxZp (n : Byte) (s : State) : Result := .next (loadRegister State.setX (.mem (.zp n)) 3 s)

/-- `LDX $nn,Y` (B6), R141. -/
def execLdxZpy (n : Byte) (s : State) : Result := .next (loadRegister State.setX (.mem (.zpy n)) 4 s)

/-- `LDX $hhll` (AE), R141. -/
def execLdxAbs (w : Addr) (s : State) : Result := .next (loadRegister State.setX (.mem (.abs w)) 4 s)

/-- `LDX $hhll,Y` (BE), R141. -/
def execLdxAbsy (w : Addr) (s : State) : Result := .next (loadRegister State.setX (.mem (.absy w)) 4 s)

/-- `LDY #$nn` (A0), R142. -/
def execLdyImm (n : Byte) (s : State) : Result := .next (loadRegister State.setY (.imm n) 2 s)

/-- `LDY $nn` (A4), R142. -/
def execLdyZp (n : Byte) (s : State) : Result := .next (loadRegister State.setY (.mem (.zp n)) 3 s)

/-- `LDY $nn,X` (B4), R142. -/
def execLdyZpx (n : Byte) (s : State) : Result := .next (loadRegister State.setY (.mem (.zpx n)) 4 s)

/-- `LDY $hhll` (AC), R142. -/
def execLdyAbs (w : Addr) (s : State) : Result := .next (loadRegister State.setY (.mem (.abs w)) 4 s)

/-- `LDY $hhll,X` (BC), R142. -/
def execLdyAbsx (w : Addr) (s : State) : Result := .next (loadRegister State.setY (.mem (.absx w)) 4 s)

/-- `STA $nn` (85), R143. -/
def execStaZp (n : Byte) (s : State) : Result := .next (storeByte (.zp n) s.a 3 s)

/-- `STA $nn,X` (95), R143. -/
def execStaZpx (n : Byte) (s : State) : Result := .next (storeByte (.zpx n) s.a 4 s)

/-- `STA $hhll` (8D), R143. -/
def execStaAbs (w : Addr) (s : State) : Result := .next (storeByte (.abs w) s.a 4 s)

/-- `STA $hhll,X` (9D), R143. -/
def execStaAbsx (w : Addr) (s : State) : Result := .next (storeByte (.absx w) s.a 5 s)

/-- `STA $hhll,Y` (99), R143. -/
def execStaAbsy (w : Addr) (s : State) : Result := .next (storeByte (.absy w) s.a 5 s)

/-- `STA ($nn,X)` (81), R143. -/
def execStaIzx (n : Byte) (s : State) : Result := .next (storeByte (.izx n) s.a 6 s)

/-- `STA ($nn),Y` (91), R143. -/
def execStaIzy (n : Byte) (s : State) : Result := .next (storeByte (.izy n) s.a 6 s)

/-- `STA ($nn)` (92), R143. -/
def execStaIzp (n : Byte) (s : State) : Result := .next (storeByte (.izp n) s.a 5 s)

/-- `STX $nn` (86), R144. -/
def execStxZp (n : Byte) (s : State) : Result := .next (storeByte (.zp n) s.x 3 s)

/-- `STX $nn,Y` (96), R144. -/
def execStxZpy (n : Byte) (s : State) : Result := .next (storeByte (.zpy n) s.x 4 s)

/-- `STX $hhll` (8E), R144. -/
def execStxAbs (w : Addr) (s : State) : Result := .next (storeByte (.abs w) s.x 4 s)

/-- `STY $nn` (84), R145. -/
def execStyZp (n : Byte) (s : State) : Result := .next (storeByte (.zp n) s.y 3 s)

/-- `STY $nn,X` (94), R145. -/
def execStyZpx (n : Byte) (s : State) : Result := .next (storeByte (.zpx n) s.y 4 s)

/-- `STY $hhll` (8C), R145. -/
def execStyAbs (w : Addr) (s : State) : Result := .next (storeByte (.abs w) s.y 4 s)

/-- `STZ $nn` (64), R146. -/
def execStzZp (n : Byte) (s : State) : Result := .next (storeByte (.zp n) 0x00 3 s)

/-- `STZ $nn,X` (74), R146. -/
def execStzZpx (n : Byte) (s : State) : Result := .next (storeByte (.zpx n) 0x00 4 s)

/-- `STZ $hhll` (9C), R146. -/
def execStzAbs (w : Addr) (s : State) : Result := .next (storeByte (.abs w) 0x00 4 s)

/-- `STZ $hhll,X` (9E), R146. -/
def execStzAbsx (w : Addr) (s : State) : Result := .next (storeByte (.absx w) 0x00 5 s)

/-- `TAX` (AA), R147. -/
def execTax (s : State) : Result := .next (transfer State.setX s.a s)

/-- `TAY` (A8), R148. -/
def execTay (s : State) : Result := .next (transfer State.setY s.a s)

/-- `TXA` (8A), R149. -/
def execTxa (s : State) : Result := .next (transfer State.setA s.x s)

/-- `TYA` (98), R150. -/
def execTya (s : State) : Result := .next (transfer State.setA s.y s)

/-- `TSX` (BA), R151. -/
def execTsx (s : State) : Result := .next (transfer State.setX s.sp s)

/-- `TXS` (9A), R152. -/
def execTxs (s : State) : Result := .next (tick 2 (s.setSp s.x))

end Sys2Proof.Machine
end

