-- ==== Sys2Proof/Machine/Arith.lean ====
section
/-! DEFINITION. Arithmetic, compare, increment and decrement (spec 42). -/

namespace Sys2Proof.Machine

/-- ADC (42 R161). -/
def addWithCarry (o : Operand) (cycles : Nat) (s : State) : State :=
  let m := load o s
  let r := adcResult m.2.a m.1 m.2.p
  tick cycles ((m.2.setA r.1).setP r.2)

/-- SBC (42 R162). -/
def subtractWithBorrow (o : Operand) (cycles : Nat) (s : State) : State :=
  let m := load o s
  let r := sbcResult m.2.a m.1 m.2.p
  tick cycles ((m.2.setA r.1).setP r.2)

/-- CMP, CPX, CPY with register value `v` (42 R164 to R166): only the status changes. -/
def compareWith (v : Byte) (o : Operand) (cycles : Nat) (s : State) : State :=
  let m := load o s
  tick cycles (m.2.setP (compareStatus v m.1 m.2.p))

/-- A read-modify-write of memory (40 R135), then its cycles. -/
def modifyMemory (f : Byte → Byte → Byte × Byte) (m : MemOperand) (cycles : Nat) (s : State) : State :=
  tick cycles (modify m f s)

/-- A one-byte operation on a register of value `v` that writes it back and the status (42 R169 to R174; 43 R186 to R189). -/
def modifyRegister (set : State → Byte → State) (f : Byte → Byte → Byte × Byte) (v : Byte) (s : State) : State :=
  let r := f v s.p
  tick 2 ((set s r.1).setP r.2)

/-- `ADC #$nn` (69), R161. -/
def execAdcImm (n : Byte) (s : State) : Result := .next (addWithCarry (.imm n) 2 s)

/-- `ADC $nn` (65), R161. -/
def execAdcZp (n : Byte) (s : State) : Result := .next (addWithCarry (.mem (.zp n)) 3 s)

/-- `ADC $nn,X` (75), R161. -/
def execAdcZpx (n : Byte) (s : State) : Result := .next (addWithCarry (.mem (.zpx n)) 4 s)

/-- `ADC $hhll` (6D), R161. -/
def execAdcAbs (w : Addr) (s : State) : Result := .next (addWithCarry (.mem (.abs w)) 4 s)

/-- `ADC $hhll,X` (7D), R161. -/
def execAdcAbsx (w : Addr) (s : State) : Result := .next (addWithCarry (.mem (.absx w)) 4 s)

/-- `ADC $hhll,Y` (79), R161. -/
def execAdcAbsy (w : Addr) (s : State) : Result := .next (addWithCarry (.mem (.absy w)) 4 s)

/-- `ADC ($nn,X)` (61), R161. -/
def execAdcIzx (n : Byte) (s : State) : Result := .next (addWithCarry (.mem (.izx n)) 6 s)

/-- `ADC ($nn),Y` (71), R161. -/
def execAdcIzy (n : Byte) (s : State) : Result := .next (addWithCarry (.mem (.izy n)) 5 s)

/-- `ADC ($nn)` (72), R161. -/
def execAdcIzp (n : Byte) (s : State) : Result := .next (addWithCarry (.mem (.izp n)) 5 s)

/-- `SBC #$nn` (E9), R162. -/
def execSbcImm (n : Byte) (s : State) : Result := .next (subtractWithBorrow (.imm n) 2 s)

/-- `SBC $nn` (E5), R162. -/
def execSbcZp (n : Byte) (s : State) : Result := .next (subtractWithBorrow (.mem (.zp n)) 3 s)

/-- `SBC $nn,X` (F5), R162. -/
def execSbcZpx (n : Byte) (s : State) : Result := .next (subtractWithBorrow (.mem (.zpx n)) 4 s)

/-- `SBC $hhll` (ED), R162. -/
def execSbcAbs (w : Addr) (s : State) : Result := .next (subtractWithBorrow (.mem (.abs w)) 4 s)

/-- `SBC $hhll,X` (FD), R162. -/
def execSbcAbsx (w : Addr) (s : State) : Result := .next (subtractWithBorrow (.mem (.absx w)) 4 s)

/-- `SBC $hhll,Y` (F9), R162. -/
def execSbcAbsy (w : Addr) (s : State) : Result := .next (subtractWithBorrow (.mem (.absy w)) 4 s)

/-- `SBC ($nn,X)` (E1), R162. -/
def execSbcIzx (n : Byte) (s : State) : Result := .next (subtractWithBorrow (.mem (.izx n)) 6 s)

/-- `SBC ($nn),Y` (F1), R162. -/
def execSbcIzy (n : Byte) (s : State) : Result := .next (subtractWithBorrow (.mem (.izy n)) 5 s)

/-- `SBC ($nn)` (F2), R162. -/
def execSbcIzp (n : Byte) (s : State) : Result := .next (subtractWithBorrow (.mem (.izp n)) 5 s)

/-- `CMP #$nn` (C9), R164. -/
def execCmpImm (n : Byte) (s : State) : Result := .next (compareWith s.a (.imm n) 2 s)

/-- `CMP $nn` (C5), R164. -/
def execCmpZp (n : Byte) (s : State) : Result := .next (compareWith s.a (.mem (.zp n)) 3 s)

/-- `CMP $nn,X` (D5), R164. -/
def execCmpZpx (n : Byte) (s : State) : Result := .next (compareWith s.a (.mem (.zpx n)) 4 s)

/-- `CMP $hhll` (CD), R164. -/
def execCmpAbs (w : Addr) (s : State) : Result := .next (compareWith s.a (.mem (.abs w)) 4 s)

/-- `CMP $hhll,X` (DD), R164. -/
def execCmpAbsx (w : Addr) (s : State) : Result := .next (compareWith s.a (.mem (.absx w)) 4 s)

/-- `CMP $hhll,Y` (D9), R164. -/
def execCmpAbsy (w : Addr) (s : State) : Result := .next (compareWith s.a (.mem (.absy w)) 4 s)

/-- `CMP ($nn,X)` (C1), R164. -/
def execCmpIzx (n : Byte) (s : State) : Result := .next (compareWith s.a (.mem (.izx n)) 6 s)

/-- `CMP ($nn),Y` (D1), R164. -/
def execCmpIzy (n : Byte) (s : State) : Result := .next (compareWith s.a (.mem (.izy n)) 5 s)

/-- `CMP ($nn)` (D2), R164. -/
def execCmpIzp (n : Byte) (s : State) : Result := .next (compareWith s.a (.mem (.izp n)) 5 s)

/-- `CPX #$nn` (E0), R165. -/
def execCpxImm (n : Byte) (s : State) : Result := .next (compareWith s.x (.imm n) 2 s)

/-- `CPX $nn` (E4), R165. -/
def execCpxZp (n : Byte) (s : State) : Result := .next (compareWith s.x (.mem (.zp n)) 3 s)

/-- `CPX $hhll` (EC), R165. -/
def execCpxAbs (w : Addr) (s : State) : Result := .next (compareWith s.x (.mem (.abs w)) 4 s)

/-- `CPY #$nn` (C0), R166. -/
def execCpyImm (n : Byte) (s : State) : Result := .next (compareWith s.y (.imm n) 2 s)

/-- `CPY $nn` (C4), R166. -/
def execCpyZp (n : Byte) (s : State) : Result := .next (compareWith s.y (.mem (.zp n)) 3 s)

/-- `CPY $hhll` (CC), R166. -/
def execCpyAbs (w : Addr) (s : State) : Result := .next (compareWith s.y (.mem (.abs w)) 4 s)

/-- `INC $nn` (E6), R167. -/
def execIncZp (n : Byte) (s : State) : Result := .next (modifyMemory incResult (.zp n) 5 s)

/-- `INC $nn,X` (F6), R167. -/
def execIncZpx (n : Byte) (s : State) : Result := .next (modifyMemory incResult (.zpx n) 6 s)

/-- `INC $hhll` (EE), R167. -/
def execIncAbs (w : Addr) (s : State) : Result := .next (modifyMemory incResult (.abs w) 6 s)

/-- `INC $hhll,X` (FE), R167. -/
def execIncAbsx (w : Addr) (s : State) : Result := .next (modifyMemory incResult (.absx w) 7 s)

/-- `DEC $nn` (C6), R168. -/
def execDecZp (n : Byte) (s : State) : Result := .next (modifyMemory decResult (.zp n) 5 s)

/-- `DEC $nn,X` (D6), R168. -/
def execDecZpx (n : Byte) (s : State) : Result := .next (modifyMemory decResult (.zpx n) 6 s)

/-- `DEC $hhll` (CE), R168. -/
def execDecAbs (w : Addr) (s : State) : Result := .next (modifyMemory decResult (.abs w) 6 s)

/-- `DEC $hhll,X` (DE), R168. -/
def execDecAbsx (w : Addr) (s : State) : Result := .next (modifyMemory decResult (.absx w) 7 s)

/-- `INX` (E8), R169. -/
def execInx (s : State) : Result := .next (modifyRegister State.setX incResult s.x s)

/-- `INY` (C8), R170. -/
def execIny (s : State) : Result := .next (modifyRegister State.setY incResult s.y s)

/-- `DEX` (CA), R171. -/
def execDex (s : State) : Result := .next (modifyRegister State.setX decResult s.x s)

/-- `DEY` (88), R172. -/
def execDey (s : State) : Result := .next (modifyRegister State.setY decResult s.y s)

/-- `INA A` (1A), R173. -/
def execIna (s : State) : Result := .next (modifyRegister State.setA incResult s.a s)

/-- `DEA A` (3A), R174. -/
def execDea (s : State) : Result := .next (modifyRegister State.setA decResult s.a s)

end Sys2Proof.Machine
end

