-- ==== Sys2Proof/Machine/Logic.lean ====
section
/-! DEFINITION. Logic, bit tests, shifts and rotates (spec 43). -/

namespace Sys2Proof.Machine

/-- AND, ORA, EOR (43 R180 to R182): `f` of the accumulator and the operand, N and Z from the result. -/
def logicalOp (f : Byte → Byte → Byte) (o : Operand) (cycles : Nat) (s : State) : State :=
  let m := load o s
  let r := f m.2.a m.1
  tick cycles ((m.2.setA r).setP (setNZ r m.2.p))

/-- BIT (43 R183): only the status changes, by `f` of the accumulator, the operand and the old status. -/
def bitTest (f : Byte → Byte → Byte → Byte) (o : Operand) (cycles : Nat) (s : State) : State :=
  let m := load o s
  tick cycles (m.2.setP (f m.2.a m.1 m.2.p))

/-- `AND #$nn` (29), R180. -/
def execAndImm (n : Byte) (s : State) : Result := .next (logicalOp BitVec.and (.imm n) 2 s)

/-- `AND $nn` (25), R180. -/
def execAndZp (n : Byte) (s : State) : Result := .next (logicalOp BitVec.and (.mem (.zp n)) 3 s)

/-- `AND $nn,X` (35), R180. -/
def execAndZpx (n : Byte) (s : State) : Result := .next (logicalOp BitVec.and (.mem (.zpx n)) 4 s)

/-- `AND $hhll` (2D), R180. -/
def execAndAbs (w : Addr) (s : State) : Result := .next (logicalOp BitVec.and (.mem (.abs w)) 4 s)

/-- `AND $hhll,X` (3D), R180. -/
def execAndAbsx (w : Addr) (s : State) : Result := .next (logicalOp BitVec.and (.mem (.absx w)) 4 s)

/-- `AND $hhll,Y` (39), R180. -/
def execAndAbsy (w : Addr) (s : State) : Result := .next (logicalOp BitVec.and (.mem (.absy w)) 4 s)

/-- `AND ($nn,X)` (21), R180. -/
def execAndIzx (n : Byte) (s : State) : Result := .next (logicalOp BitVec.and (.mem (.izx n)) 6 s)

/-- `AND ($nn),Y` (31), R180. -/
def execAndIzy (n : Byte) (s : State) : Result := .next (logicalOp BitVec.and (.mem (.izy n)) 5 s)

/-- `AND ($nn)` (32), R180. -/
def execAndIzp (n : Byte) (s : State) : Result := .next (logicalOp BitVec.and (.mem (.izp n)) 5 s)

/-- `ORA #$nn` (09), R181. -/
def execOraImm (n : Byte) (s : State) : Result := .next (logicalOp BitVec.or (.imm n) 2 s)

/-- `ORA $nn` (05), R181. -/
def execOraZp (n : Byte) (s : State) : Result := .next (logicalOp BitVec.or (.mem (.zp n)) 3 s)

/-- `ORA $nn,X` (15), R181. -/
def execOraZpx (n : Byte) (s : State) : Result := .next (logicalOp BitVec.or (.mem (.zpx n)) 4 s)

/-- `ORA $hhll` (0D), R181. -/
def execOraAbs (w : Addr) (s : State) : Result := .next (logicalOp BitVec.or (.mem (.abs w)) 4 s)

/-- `ORA $hhll,X` (1D), R181. -/
def execOraAbsx (w : Addr) (s : State) : Result := .next (logicalOp BitVec.or (.mem (.absx w)) 4 s)

/-- `ORA $hhll,Y` (19), R181. -/
def execOraAbsy (w : Addr) (s : State) : Result := .next (logicalOp BitVec.or (.mem (.absy w)) 4 s)

/-- `ORA ($nn,X)` (01), R181. -/
def execOraIzx (n : Byte) (s : State) : Result := .next (logicalOp BitVec.or (.mem (.izx n)) 6 s)

/-- `ORA ($nn),Y` (11), R181. -/
def execOraIzy (n : Byte) (s : State) : Result := .next (logicalOp BitVec.or (.mem (.izy n)) 5 s)

/-- `ORA ($nn)` (12), R181. -/
def execOraIzp (n : Byte) (s : State) : Result := .next (logicalOp BitVec.or (.mem (.izp n)) 5 s)

/-- `EOR #$nn` (49), R182. -/
def execEorImm (n : Byte) (s : State) : Result := .next (logicalOp BitVec.xor (.imm n) 2 s)

/-- `EOR $nn` (45), R182. -/
def execEorZp (n : Byte) (s : State) : Result := .next (logicalOp BitVec.xor (.mem (.zp n)) 3 s)

/-- `EOR $nn,X` (55), R182. -/
def execEorZpx (n : Byte) (s : State) : Result := .next (logicalOp BitVec.xor (.mem (.zpx n)) 4 s)

/-- `EOR $hhll` (4D), R182. -/
def execEorAbs (w : Addr) (s : State) : Result := .next (logicalOp BitVec.xor (.mem (.abs w)) 4 s)

/-- `EOR $hhll,X` (5D), R182. -/
def execEorAbsx (w : Addr) (s : State) : Result := .next (logicalOp BitVec.xor (.mem (.absx w)) 4 s)

/-- `EOR $hhll,Y` (59), R182. -/
def execEorAbsy (w : Addr) (s : State) : Result := .next (logicalOp BitVec.xor (.mem (.absy w)) 4 s)

/-- `EOR ($nn,X)` (41), R182. -/
def execEorIzx (n : Byte) (s : State) : Result := .next (logicalOp BitVec.xor (.mem (.izx n)) 6 s)

/-- `EOR ($nn),Y` (51), R182. -/
def execEorIzy (n : Byte) (s : State) : Result := .next (logicalOp BitVec.xor (.mem (.izy n)) 5 s)

/-- `EOR ($nn)` (52), R182. -/
def execEorIzp (n : Byte) (s : State) : Result := .next (logicalOp BitVec.xor (.mem (.izp n)) 5 s)

/-- `BIT #$nn` (89), R183. -/
def execBitImm (n : Byte) (s : State) : Result := .next (bitTest bitImmStatus (.imm n) 2 s)

/-- `BIT $nn` (24), R183. -/
def execBitZp (n : Byte) (s : State) : Result := .next (bitTest bitMemStatus (.mem (.zp n)) 3 s)

/-- `BIT $nn,X` (34), R183. -/
def execBitZpx (n : Byte) (s : State) : Result := .next (bitTest bitMemStatus (.mem (.zpx n)) 4 s)

/-- `BIT $hhll` (2C), R183. -/
def execBitAbs (w : Addr) (s : State) : Result := .next (bitTest bitMemStatus (.mem (.abs w)) 4 s)

/-- `BIT $hhll,X` (3C), R183. -/
def execBitAbsx (w : Addr) (s : State) : Result := .next (bitTest bitMemStatus (.mem (.absx w)) 4 s)

/-- `TRB $nn` (14), R184. -/
def execTrbZp (n : Byte) (s : State) : Result := .next (modifyMemory (trbResult s.a) (.zp n) 5 s)

/-- `TRB $hhll` (1C), R184. -/
def execTrbAbs (w : Addr) (s : State) : Result := .next (modifyMemory (trbResult s.a) (.abs w) 6 s)

/-- `TSB $nn` (04), R185. -/
def execTsbZp (n : Byte) (s : State) : Result := .next (modifyMemory (tsbResult s.a) (.zp n) 5 s)

/-- `TSB $hhll` (0C), R185. -/
def execTsbAbs (w : Addr) (s : State) : Result := .next (modifyMemory (tsbResult s.a) (.abs w) 6 s)

/-- `ASL A` (0A), R186. -/
def execAslAcc (s : State) : Result := .next (modifyRegister State.setA aslResult s.a s)

/-- `ASL $nn` (06), R186. -/
def execAslZp (n : Byte) (s : State) : Result := .next (modifyMemory aslResult (.zp n) 5 s)

/-- `ASL $nn,X` (16), R186. -/
def execAslZpx (n : Byte) (s : State) : Result := .next (modifyMemory aslResult (.zpx n) 6 s)

/-- `ASL $hhll` (0E), R186. -/
def execAslAbs (w : Addr) (s : State) : Result := .next (modifyMemory aslResult (.abs w) 6 s)

/-- `ASL $hhll,X` (1E), R186. -/
def execAslAbsx (w : Addr) (s : State) : Result := .next (modifyMemory aslResult (.absx w) 7 s)

/-- `LSR A` (4A), R187. -/
def execLsrAcc (s : State) : Result := .next (modifyRegister State.setA lsrResult s.a s)

/-- `LSR $nn` (46), R187. -/
def execLsrZp (n : Byte) (s : State) : Result := .next (modifyMemory lsrResult (.zp n) 5 s)

/-- `LSR $nn,X` (56), R187. -/
def execLsrZpx (n : Byte) (s : State) : Result := .next (modifyMemory lsrResult (.zpx n) 6 s)

/-- `LSR $hhll` (4E), R187. -/
def execLsrAbs (w : Addr) (s : State) : Result := .next (modifyMemory lsrResult (.abs w) 6 s)

/-- `LSR $hhll,X` (5E), R187. -/
def execLsrAbsx (w : Addr) (s : State) : Result := .next (modifyMemory lsrResult (.absx w) 7 s)

/-- `ROL A` (2A), R188. -/
def execRolAcc (s : State) : Result := .next (modifyRegister State.setA rolResult s.a s)

/-- `ROL $nn` (26), R188. -/
def execRolZp (n : Byte) (s : State) : Result := .next (modifyMemory rolResult (.zp n) 5 s)

/-- `ROL $nn,X` (36), R188. -/
def execRolZpx (n : Byte) (s : State) : Result := .next (modifyMemory rolResult (.zpx n) 6 s)

/-- `ROL $hhll` (2E), R188. -/
def execRolAbs (w : Addr) (s : State) : Result := .next (modifyMemory rolResult (.abs w) 6 s)

/-- `ROL $hhll,X` (3E), R188. -/
def execRolAbsx (w : Addr) (s : State) : Result := .next (modifyMemory rolResult (.absx w) 7 s)

/-- `ROR A` (6A), R189. -/
def execRorAcc (s : State) : Result := .next (modifyRegister State.setA rorResult s.a s)

/-- `ROR $nn` (66), R189. -/
def execRorZp (n : Byte) (s : State) : Result := .next (modifyMemory rorResult (.zp n) 5 s)

/-- `ROR $nn,X` (76), R189. -/
def execRorZpx (n : Byte) (s : State) : Result := .next (modifyMemory rorResult (.zpx n) 6 s)

/-- `ROR $hhll` (6E), R189. -/
def execRorAbs (w : Addr) (s : State) : Result := .next (modifyMemory rorResult (.abs w) 6 s)

/-- `ROR $hhll,X` (7E), R189. -/
def execRorAbsx (w : Addr) (s : State) : Result := .next (modifyMemory rorResult (.absx w) 7 s)

end Sys2Proof.Machine
end

