-- ==== Sys2Proof/Machine/Stack.lean ====
section
/-! DEFINITION. Push and pull instructions (spec 45). -/

namespace Sys2Proof.Machine

/-- A register's byte pushed (45 R222, R226, R228), or PHP's status byte (45 R224): 3 cycles. -/
def pushByte (v : Byte) (s : State) : State := tick 3 (push v s)

/-- A register pulled (45 R223, R227, R229): 4 cycles, N and Z from the byte. -/
def pullRegister (set : State → Byte → State) (s : State) : State :=
  let r := pop s
  tick 4 ((set r.2 r.1).setP (setNZ r.1 r.2.p))

/-- PLP (45 R225): the whole status, then the replay of a deferred IRQ. -/
def pullStatus (s : State) : State :=
  let r := pop s
  tick 4 (replayIrq (r.2.setP (statusOfByte r.1)))

/-- `PHA` (48), R222. -/
def execPha (s : State) : Result := .next (pushByte s.a s)

/-- `PHX` (DA), R226. -/
def execPhx (s : State) : Result := .next (pushByte s.x s)

/-- `PHY` (5A), R228. -/
def execPhy (s : State) : Result := .next (pushByte s.y s)

/-- `PHP` (08), R224. -/
def execPhp (s : State) : Result := .next (pushByte (pushedByBreak s.p) s)

/-- `PLA` (68), R223. -/
def execPla (s : State) : Result := .next (pullRegister State.setA s)

/-- `PLX` (FA), R227. -/
def execPlx (s : State) : Result := .next (pullRegister State.setX s)

/-- `PLY` (7A), R229. -/
def execPly (s : State) : Result := .next (pullRegister State.setY s)

/-- `PLP` (28), R225. -/
def execPlp (s : State) : Result := .next (pullStatus s)

end Sys2Proof.Machine
end

