-- ==== Sys2Proof/Machine/System.lean ====
section
/-! DEFINITION. Flag instructions, NOP, BRK, RTI and the unknown opcodes (spec 46). -/

namespace Sys2Proof.Machine

/-- A flag instruction (46 R230, R231, R233 to R236): one bit of `P`, 2 cycles. -/
def writeFlag (f : Flag) (v : Bool) (s : State) : State := tick 2 (s.setP (setFlag s.p f v))

/-- CLI (46 R232): clear I, then replay one deferred IRQ. -/
def clearInterruptDisable (s : State) : State := tick 2 (replayIrq (s.setP (setFlag s.p .i false)))

/-- BRK (46 R240): the byte after the opcode is skipped, unread; I is set and every other bit of `P` kept. -/
def softwareInterrupt (s : State) : State :=
  enterInterrupt (s.pc + 1) (pushedByBreak s.p) (setFlag s.p .i true) 0xFFFE s

/-- An unknown opcode (46 R245): it is logged to the host and charged 2 cycles. -/
def unknownOpcode (op : Byte) (s : State) : State := tick 2 (s.emit (.unknownOpcode op))

/-- `CLC` (18), R230. -/
def execClc (s : State) : Result := .next (writeFlag .c false s)

/-- `SEC` (38), R231. -/
def execSec (s : State) : Result := .next (writeFlag .c true s)

/-- `SEI` (78), R233. -/
def execSei (s : State) : Result := .next (writeFlag .i true s)

/-- `CLD` (D8), R234. -/
def execCld (s : State) : Result := .next (writeFlag .d false s)

/-- `SED` (F8), R235. -/
def execSed (s : State) : Result := .next (writeFlag .d true s)

/-- `CLV` (B8), R236. -/
def execClv (s : State) : Result := .next (writeFlag .v false s)

/-- `CLI` (58), R232. -/
def execCli (s : State) : Result := .next (clearInterruptDisable s)

/-- `NOP` (EA), R237. -/
def execNop (s : State) : Result := .next (tick 2 s)

/-- `BRK` (00), R240. -/
def execBrk (s : State) : Result := .next (softwareInterrupt s)

/-- `RTI` (40), R241. -/
def execRti (s : State) : Result := .next (tick 6 (returnFromInterrupt s))

/-- Any of the 78 unknown opcode bytes, R245. -/
def execUnknown (op : Byte) (s : State) : Result := .next (unknownOpcode op s)

end Sys2Proof.Machine
end

