-- ==== Sys2Proof/Machine/Interrupts.lean ====
section
/-! DEFINITION. The three asynchronous events (spec 60 R310 to R316): the RESET, NMI and IRQ sequences and the check
that starts every step. -/

namespace Sys2Proof.Machine

/-- The vector addresses (20 R62). -/
def nmiVector : Addr := 0xFFFA
def resetVector : Addr := 0xFFFC
def irqVector : Addr := 0xFFFE

/-- The RESET sequence (60 R313): nothing is pushed, `clock` and `pendingIRQ` stay. -/
def resetSequence (s : State) : State :=
  let s1 := ((((s.setA 0x00).setX 0x00).setY 0x00).setP 0x20).setSp 0xFF
  let target := read16 resetVector s1
  let s2 := target.2.setPc target.1
  s2.setLatches { s2.latches with reset := false }

/-- The NMI sequence (60 R314): `P` is not changed. -/
def nmiSequence (s : State) : State :=
  let s1 := enterInterrupt s.pc (pushedByNmi s.p) s.p nmiVector s
  s1.setLatches { s1.latches with nmi := false }

/-- The IRQ sequence (60 R315): deferred while I is set, else taken; the latch is cleared either way. -/
def irqSequence (s : State) : State :=
  let s1 :=
    if getFlag s.p .i then s.setPendingIrq (s.pendingIrq + 1)
    else enterInterrupt s.pc (pushedByIrq s.p) (setFlag s.p .i true) irqVector s
  s1.setLatches { s1.latches with irq := false }

/-- `InterruptCheck()` (60 R312): RESET, NMI, IRQ in this order, every latch that is set. -/
def interruptCheck (s : State) : State :=
  let s1 := if s.latches.reset then resetSequence s else s
  let s2 := if s1.latches.nmi then nmiSequence s1 else s1
  if s2.latches.irq then irqSequence s2 else s2

end Sys2Proof.Machine
end

