-- ==== Sys2Proof/Machine/Step.lean ====
section
/-! DEFINITION. The step of the CPU (spec 60 R311), and the placing of one instruction where the step fetches next. -/

namespace Sys2Proof.Machine

/-- `Step()` (60 R311): the interrupt check, then exactly one instruction; no step happens in the Off state (60 R332). -/
def step (s : State) : Host.Outcome State Fault Refusal :=
  match s.power with
  | .off => .fault .poweredOff
  | .on =>
    let r := fetchInstr (interruptCheck s)
    exec r.1 r.2

/-- `s` with the instruction of a table word stored where the next step fetches. The machine is on and no latch is set,
so that the step's check does nothing and the fetch is at `PC`; where the three bytes at `PC` are not all RAM or ROM,
`PC` is first moved to 0x0000 (log entry 2). -/
def State.withFetchWord (s : State) (nbits w : Nat) : State :=
  let s1 := (s.setPower .on).setLatches ⟨false, false, false⟩
  let fits := isMemory s.bankMode s.pc && isMemory s.bankMode (s.pc + 1) && isMemory s.bankMode (s.pc + 2)
  let s2 := if fits then s1 else s1.setPc 0x0000
  placeBytes s2.pc (tableWordBytes nbits w) s2

end Sys2Proof.Machine
end

