-- ==== Sys2Proof/Machine/VideoTask.lean ====
section
/-! DEFINITION. The video refresh task (spec 48 R296; 20 R89): an agent of its own, which reads the selected hi-res page
through the bus and writes the framebuffer. `videoRead` is one byte read of a refresh in progress, the granularity at
which it may interleave with the CPU; `refresh` is a whole frame at one instant. -/

namespace Sys2Proof.Machine

/-- The 192 scanlines of 40 bytes (48 R293). -/
def scanlines : Nat := 192
def lineBytes : Nat := 40

/-- The byte the video task reads at column `k` of scanline `y`, through the bus (48 R293, R296). -/
def videoByte (s : State) (y k : Nat) : Byte × State :=
  memRead (BitVec.ofNat 16 (byteAddr s.vid.hiresPage y k)) s

/-- A refresh begins: nothing is read yet. -/
def videoStart (s : State) : State := s.setVid { s.vid with scanRow := 0, scanLine := [] }

/-- The end of a scanline whose bytes are `line`: its row is drawn, in the colour mode of that moment, and the scan goes
to the next line, or after the last one signals "damaged" and begins again (48 R296, D31). -/
def videoEndLine (line : List Byte) (s : State) : State :=
  let fb := drawScanline s.vid.fb s.vid.scanRow (rasterLine s.vid.colorMode line)
  if s.vid.scanRow + 1 < scanlines then
    s.setVid { s.vid with fb := fb, scanRow := s.vid.scanRow + 1, scanLine := [] }
  else (s.setVid { s.vid with fb := fb, scanRow := 0, scanLine := [] }).emit .damaged

/-- One atomic byte read of the refresh in progress (48 R296, 20 R89). -/
def videoRead (s : State) : State :=
  let r := videoByte s s.vid.scanRow s.vid.scanLine.length
  let line := s.vid.scanLine ++ [r.1]
  if line.length < lineBytes then r.2.setVid { r.2.vid with scanLine := line } else videoEndLine line r.2

/-- `k` byte reads with nothing in between. -/
def videoReads : Nat → State → State
  | 0, s => s
  | k + 1, s => videoReads k (videoRead s)

/-- The bytes of scanline `y`, all of this instant. -/
def scanBytes (s : State) (y : Nat) : List Byte := (List.range lineBytes).map fun k => (videoByte s y k).1

/-- The framebuffer a refresh of this instant draws, scanline by scanline (48 R296, R302). -/
def frame (s : State) : Framebuffer :=
  (List.range scanlines).foldl (fun fb y => drawScanline fb y (rasterLine s.vid.colorMode (scanBytes s y))) s.vid.fb

/-- `Refresh()` at one instant: it writes only the framebuffer, and signals "damaged" (48 R296). -/
def refresh (s : State) : State :=
  (s.setVid { s.vid with fb := frame s, scanRow := 0, scanLine := [] }).emit .damaged

end Sys2Proof.Machine
end

