-- ==== Sys2Proof/Machine/HostPort.lean ====
section
/-! DEFINITION. What the outside world can do to the machine (spec 60 R317, R330 to R334; 70 R340, R342): each action
takes effect atomically between two steps. When each happens is the environment's (log entry 21). -/

namespace Sys2Proof.Machine

/-- The actions of the host and the environment. -/
inductive HostAction
  /-- `reset()`, 60 R331 -/
  | machineReset
  /-- `powerOn()` with a ROM image, 60 R332, 70 R340 -/
  | powerOn (image : List Byte)
  /-- `powerOff()`, 60 R332 -/
  | powerOff
  /-- `assertIRQ()`, 60 R317 -/
  | assertIrq
  /-- `assertNMI()`, 60 R317 -/
  | assertNmi
  /-- `pushKey(event)`, 60 R333 -/
  | pushKey (key : Key) (ctrl shift : Bool)
  /-- `releaseKey()`, 60 R333 -/
  | releaseKey
  /-- `insertTape`, with the bytes of the file, 60 R334 -/
  | insertTape (file : List Byte)
  /-- `play()`, 60 R334 -/
  | tapePlay
  /-- `stop()`, 60 R334 -/
  | tapeStop
  /-- `setColorMode(b)`, 48 R292 -/
  | setColorMode (color : Bool)
  /-- `setSoundEnabled(b)`, 47 R279 -/
  | setSoundEnabled (b : Bool)
  /-- `setTapeSoundEnabled(b)`, 60 R334 -/
  | setTapeSoundEnabled (b : Bool)
  /-- the host's audio device comes or goes, 47 R279 -/
  | setAudioAvailable (b : Bool)
  deriving DecidableEq, Repr

/-- `MachineReset()` (70 R342): ROM, page 1, MONO, then the RESET latch. -/
def machineReset (s : State) : State :=
  let s1 := bankSwitch .rom s
  let s2 := s1.setVid { s1.vid with hiresPage := .page1, colorMode := .mono }
  s2.setLatches { s2.latches with reset := true }

/-- `PowerOn(romImage)` (70 R340): it fails without a whole image, leaving the machine as it was. The device state is
the power-on column of 10 R38; what that column leaves unspecified or to the host stays as it is (log entry 19). -/
def powerOn (image : List Byte) (s : State) : State :=
  if image.length = romSize then
    State.emit
      { s with
        rom := romOfImage 0 image
        ram := []
        bankMode := .rom
        kb := { s.kb with kbin := 0x00, ctrlQuery := false, clear := true, ctrl := false, shift := false }
        tape := { s.tape with wave := [], head := 0, active := false, play := false, casin := .low }
        snd := { s.snd with line := .low, last := 0 }
        vid := { s.vid with colorMode := .mono, hiresPage := .page1, scanRow := 0, scanLine := [] }
        clock := 0
        pendingIrq := 0
        latches := ⟨true, false, false⟩
        power := .on }
      .powerOn
  else s.emit .assetMissing

/-- `powerOff()` (60 R332): both agents stop and RAM is cleared; the rest is kept until the next power-on. -/
def powerOff (s : State) : State := ((s.setRam clearedRam).setPower .off).emit .powerOff

/-- The audio device comes or goes (47 R279): while it is away the error is there to be seen; whether its return clears
the error is open (log entry 32). -/
def Speaker.setAvailable (sp : Speaker) (b : Bool) : Speaker :=
  { sp with
    available := b
    lastError := if b then (if Config.clearsAudioError then none else sp.lastError) else some .unavailable }

/-- What an action does (60 R330: atomically, between two steps). -/
def hostAct (act : HostAction) (s : State) : State :=
  match act with
  | .machineReset => machineReset s
  | .powerOn image => powerOn image s
  | .powerOff => powerOff s
  | .assertIrq => s.setLatches { s.latches with irq := true }
  | .assertNmi => s.setLatches { s.latches with nmi := true }
  | .pushKey key ctrl shift => pushKey key ctrl shift s
  | .releaseKey => releaseKey s
  | .insertTape file => insertTape file s
  | .tapePlay => tapePlay s
  | .tapeStop => tapeStop s
  | .setColorMode b => s.setVid { s.vid with colorMode := if b then .color else .mono }
  | .setSoundEnabled b => s.setSnd { s.snd with enabled := b }
  | .setTapeSoundEnabled b => s.setTape { s.tape with sound := b }
  | .setAudioAvailable b => s.setSnd (s.snd.setAvailable b)

end Sys2Proof.Machine
end

