-- ==== Sys2Proof/Safety.lean ====
section
/-! DEFINITION. The terms claims are stated in: what a state keeps of another, which addresses are RAM, the invariant of
the machine, and the states the CPU, the video task and the host can bring it to. -/

namespace Sys2Proof.Machine

/-- The four byte registers besides `P` (10 R20, R21). -/
inductive Reg
  | a | x | y | sp
  deriving DecidableEq, Repr

/-- A register's value. -/
def State.reg (s : State) : Reg → Byte
  | .a => s.a
  | .x => s.x
  | .y => s.y
  | .sp => s.sp

/-- Every byte register but those listed is as before. -/
def registersKeptExcept (rs : List Reg) (s t : State) : Prop := ∀ r, r ∉ rs → t.reg r = s.reg r

/-- Every bit of the status but the flags listed is as before, bit 5 among them. -/
def flagsKeptExcept (fs : List Flag) (s t : State) : Prop :=
  (∀ f, f ∉ fs → getFlag t.p f = getFlag s.p f) ∧ unusedBit t.p = unusedBit s.p

/-- N and Z of the status are those of the byte `v` (00 R9). -/
def nzOf (v : Byte) (t : State) : Prop :=
  getFlag t.p .n = v.getLsbD 7 ∧ (getFlag t.p .z = true ↔ v = 0x00)

/-- The exception registers and the power state are as before (10 R26, R28; 60 R332). -/
def systemKept (s t : State) : Prop :=
  t.latches = s.latches ∧ t.pendingIrq = s.pendingIrq ∧ t.power = s.power

/-- Every byte of both memories reads as before. -/
def memoryKept (s t : State) : Prop := ∀ b, t.ramAt b = s.ramAt b ∧ t.romAt b = s.romAt b

/-- Every byte of both memories reads as before, but the RAM bytes at the addresses of `stored`. -/
def memoryKeptExcept (stored : List Addr) (s t : State) : Prop :=
  ∀ b, (b ∉ stored.map BitVec.toNat → t.ramAt b = s.ramAt b) ∧ t.romAt b = s.romAt b

/-- The devices, the outputs and the free-value counter of `t` are those of `u`. -/
def devicesOf (u t : State) : Prop :=
  t.bankMode = u.bankMode ∧ t.kb = u.kb ∧ t.tape = u.tape ∧ t.snd = u.snd ∧ t.vid = u.vid ∧ t.out = u.out ∧
    t.draws = u.draws

/-- The bus routes the address to RAM (20 R60). -/
def isRam (bank : BankMode) (addr : Addr) : Prop :=
  addr.toNat < 0xC000 ∨ (0xC100 ≤ addr.toNat ∧ bank = .ram)

/-- The bus routes the address to ROM (20 R60). -/
def isRom (bank : BankMode) (addr : Addr) : Prop := 0xC100 ≤ addr.toNat ∧ bank = .rom

/-- The bus has no device at the address (20 R61). -/
def isOpenBus (addr : Addr) : Prop :=
  (0xC040 ≤ addr.toNat ∧ addr.toNat ≤ 0xC04F) ∨ addr.toNat = 0xC058 ∨ addr.toNat = 0xC059 ∨ addr.toNat = 0xC05C ∨
    addr.toNat = 0xC05D ∨ (0xC060 ≤ addr.toNat ∧ addr.toNat ≤ 0xC06F) ∨
    (0xC072 ≤ addr.toNat ∧ addr.toNat ≤ 0xC07F) ∨ (0xC08C ≤ addr.toNat ∧ addr.toNat ≤ 0xC0FF)

/-- `k` successive `Fetch8` (40 R120): the bytes, and the state after them. -/
def fetchBytes : Nat → State → List Byte × State
  | 0, s => ([], s)
  | k + 1, s => ((fetch8 s).1 :: (fetchBytes k (fetch8 s).2).1, (fetchBytes k (fetch8 s).2).2)

/-- The tape's part of the invariant: an armed half-cycle is the one at the playhead, of a tape that plays, and began in
the past (10 R34, 47 R265). -/
def Tape.consistent (t : Tape) (clock : Nat) : Prop :=
  t.active = true → t.play = true ∧ t.wave[t.head]? = some t.armed ∧ t.start ≤ clock

/-- The invariant of the machine: both memories in canonical form, bit 5 of `P` is 1 (10 R23), the tape consistent, the
speaker's last toggle in the past (10 R35), the error of an unavailable audio device observable (47 R279), the
framebuffer's rows strictly rising (10 R36), and the scan of the video task inside the screen (48 R293). -/
structure StateInv (s : State) : Prop where
  ram_wf   : s.ram.wf ramDefault ramSize
  rom_wf   : s.rom.wf romDefault romSize
  unused   : unusedBit s.p = true
  tape_ok  : s.tape.consistent s.clock
  snd_past : s.snd.last ≤ s.clock
  snd_err  : s.snd.available = false → s.snd.lastError = some .unavailable
  fb_wf    : s.vid.fb.wf
  scan_row : s.vid.scanRow < scanlines
  scan_col : s.vid.scanLine.length < lineBytes

/-- The states that the CPU's steps, the video task's reads and the host's actions bring the machine to from reset, in
any interleaving (00 R10; 60 R330; 48 R296). -/
inductive Reachable : State → Prop
  | reset : Reachable State.reset
  | step {s t : State} : Reachable s → step s = .next t → Reachable t
  | video {s : State} : Reachable s → s.power = .on → Reachable (videoRead s)
  | host {s : State} (act : HostAction) : Reachable s → Reachable (hostAct act s)

/-- Two states that differ at most in what only the video hardware holds: the softswitch settings, the framebuffer and
the scan (10 R36). -/
def sameButVideo (s t : State) : Prop := t.setVid s.vid = s

/-- The address of a stack slot (10 R21). -/
def stackSlot (sp : Byte) : Nat := 0x0100 + sp.toNat

/-- The address a vector holds, low byte at `v`, read from the memory the bus routes the vectors to (20 R62, R75). -/
def State.vectorAt (s : State) (v : Nat) : Addr :=
  match s.bankMode with
  | .rom => BitVec.ofNat 16 ((s.romAt (v + 1 - 0xC000)).toNat * 256 + (s.romAt (v - 0xC000)).toNat)
  | .ram => BitVec.ofNat 16 ((s.ramAt (v + 1)).toNat * 256 + (s.ramAt v).toNat)

/-- The interrupt frame (60 R318): the three bytes pushed from `S` of `s` on, and every other RAM byte as before. -/
def framePushed (ret : Addr) (status : Byte) (s t : State) : Prop :=
  t.ramAt (stackSlot s.sp) = BitVec.ofNat 8 (ret.toNat / 256) ∧
  t.ramAt (stackSlot (s.sp - 1)) = BitVec.ofNat 8 (ret.toNat % 256) ∧
  t.ramAt (stackSlot (s.sp - 2)) = status ∧
  ∀ b, b ≠ stackSlot s.sp → b ≠ stackSlot (s.sp - 1) → b ≠ stackSlot (s.sp - 2) → t.ramAt b = s.ramAt b

/-- What an instruction leaves of the control state: `PC` at the next instruction, its cycles on the clock, the rest of
the system registers as they were. -/
def completesIn (cycles : Nat) (s t : State) : Prop :=
  t.pc = s.pc ∧ t.clock = s.clock + cycles ∧ systemKept s t

/-- One byte `v` stored at `ea`: it reads back where the bus has RAM there, and every other byte of both memories is as
before; where the bus has no RAM there, no byte of memory changes (20 R55, R56, R61). -/
def byteStored (ea : Addr) (v : Byte) (s t : State) : Prop :=
  memoryKeptExcept [ea] s t ∧ (isRam s.bankMode ea → t.ramAt ea.toNat = v) ∧
    (¬ isRam s.bankMode ea → t.ramAt ea.toNat = s.ramAt ea.toNat)

/-- From status `p` to `p'`, N and Z became those of `v` (00 R9) and every other bit stayed. -/
def nzFrom (v p p' : Byte) : Prop :=
  getFlag p' .n = v.getLsbD 7 ∧ (getFlag p' .z = true ↔ v = 0x00) ∧
    (∀ f, f ≠ .n → f ≠ .z → getFlag p' f = getFlag p f) ∧ unusedBit p' = unusedBit p

/-- From status `p` to `p'`, flag `f` became `v` and every other bit stayed. -/
def onlyFlagSet (f : Flag) (v : Bool) (p p' : Byte) : Prop :=
  getFlag p' f = v ∧ (∀ g, g ≠ f → getFlag p' g = getFlag p g) ∧ unusedBit p' = unusedBit p

/-- One byte `v` pushed (45 R220): it is at the slot `S` designated, `S` is one less, every other RAM byte and everything
else is as before, but for the clock. -/
def bytePushed (v : Byte) (cycles : Nat) (s t : State) : Prop :=
  t = { s with sp := s.sp - 1, clock := s.clock + cycles, ram := t.ram } ∧ t.ramAt (stackSlot s.sp) = v ∧
    ∀ b, b ≠ stackSlot s.sp → t.ramAt b = s.ramAt b

/-- What an instruction that reads its operand and stores nothing leaves: every register but `rs`, every flag but `fs`,
the control state but for its cycles, and both memories; the devices as the operand's own reads leave them. -/
def readEffect (rs : List Reg) (fs : List Flag) (o : Operand) (cycles : Nat) (s t : State) : Prop :=
  registersKeptExcept rs s t ∧ flagsKeptExcept fs s t ∧ completesIn cycles s t ∧ memoryKept s t ∧
    devicesOf (load o s).2 t

/-- What a store of `v` leaves: registers, status, and every memory byte but the one at the effective address. -/
def storeEffect (m : MemOperand) (v : Byte) (cycles : Nat) (s t : State) : Prop :=
  registersKeptExcept [] s t ∧ t.p = s.p ∧ completesIn cycles s t ∧ byteStored (effectiveAddress m s).1 v s t ∧
    devicesOf (memWrite (effectiveAddress m s).1 v s) t

/-- The byte a memory operand holds, as one bus read of it gives it. -/
def operandByte (m : MemOperand) (s : State) : Byte := (memRead (effectiveAddress m s).1 s).1

/-- What a read-modify-write leaves (40 R135): `v` is stored at the effective address after exactly one read of it. -/
def modifyEffect (fs : List Flag) (m : MemOperand) (v : Byte) (cycles : Nat) (s t : State) : Prop :=
  registersKeptExcept [] s t ∧ flagsKeptExcept fs s t ∧ completesIn cycles s t ∧
    byteStored (effectiveAddress m s).1 v s t ∧
    devicesOf (memWrite (effectiveAddress m s).1 v (memRead (effectiveAddress m s).1 s).2) t

/-- The status a comparison of `r` with `m` leaves (42 R164). -/
def comparedTo (r m : Byte) (t : State) : Prop :=
  (getFlag t.p .c = true ↔ m.toNat ≤ r.toNat) ∧ (getFlag t.p .z = true ↔ r = m) ∧
    getFlag t.p .n = (r - m).getLsbD 7

/-- The samples a segment of `cycles` cycles writes to the audio sink (47 R276, R277): none past the 16,000 of the
buffer, or with the sound disabled or unavailable. -/
def speakerSamples (sp : Speaker) (cycles : Nat) : List SampleRun :=
  if cycles * 16 / 1000 ≤ 16000 ∧ sp.enabled = true ∧ sp.available = true then
    [⟨(match sp.line with | .high => 120 | .low => 0), cycles * 16 / 1000⟩]
  else []

/-- The state after one access of the speaker (47 R275, R276): the segment since the last toggle is output, the line
flipped, the time taken. -/
def speakerToggled (s : State) : State :=
  let cycles := s.clock - s.snd.last
  { s with
    snd := { s.snd with line := (match s.snd.line with | .low => .high | .high => .low), last := s.clock }
    out := { s.out with
      segments := ⟨s.snd.line, cycles⟩ :: s.out.segments
      samples := speakerSamples s.snd cycles ++ s.out.samples } }

/-- The state after the end of the tape (47 R265). -/
def tapeEnded (s : State) : State :=
  { s with
    tape := { s.tape with play := false, active := false }
    out := { s.out with signals := .tapeEnd :: s.out.signals } }

/-- The byte a keyboard read gives (47 R252): nothing with no key pressed, else the OR of the key's column when its row
is selected, the CTRL query's bit and the SHIFT line's bit. -/
def scanCode (kb : Keyboard) : Byte :=
  if kb.clear = true then 0x00
  else
    (if kb.kbin.toNat = 2 ^ kb.row.val then BitVec.ofNat 8 (2 ^ kb.col.val) else 0x00) |||
    (if kb.ctrlQuery = true ∧ kb.ctrl = true then 0x01 else 0x00) |||
    (if kb.kbin = 0x01 ∧ kb.shift = true then 0x01 else 0x00)

/-- The pointer at zero-page address `z` as a number, with the wrap of 40 R129: the high byte from `(z + 1) & 0xFF`. -/
def State.pointerAt (s : State) (z : Nat) : Nat := (s.ramAt ((z + 1) % 256)).toNat * 256 + (s.ramAt z).toNat

/-- The effective address of a memory operand as 40 R123 to R131 compute it, on numbers. -/
def eaNumber (m : MemOperand) (s : State) : Nat :=
  match m with
  | .zp n => n.toNat
  | .zpx n => (n.toNat + s.x.toNat) % 256
  | .zpy n => (n.toNat + s.y.toNat) % 256
  | .abs w => w.toNat
  | .absx w => (w.toNat + s.x.toNat) % 65536
  | .absy w => (w.toNat + s.y.toNat) % 65536
  | .izx n => s.pointerAt ((n.toNat + s.x.toNat) % 256)
  | .izy n => (s.pointerAt n.toNat + s.y.toNat) % 65536
  | .izp n => s.pointerAt n.toNat

/-- The forms of LDA with operand and cycles, as the table of 41 R140 lists them. -/
def ldaForms (n : Byte) (w : Addr) : List (Instr × Operand × Nat) :=
  [(.ldaImm n, .imm n, 2), (.ldaZp n, .mem (.zp n), 3), (.ldaZpx n, .mem (.zpx n), 4),
   (.ldaAbs w, .mem (.abs w), 4), (.ldaAbsx w, .mem (.absx w), 4), (.ldaAbsy w, .mem (.absy w), 4),
   (.ldaIzx n, .mem (.izx n), 6), (.ldaIzy n, .mem (.izy n), 5), (.ldaIzp n, .mem (.izp n), 5)]

/-- The forms of LDX with operand and cycles, as the table of 41 R141 lists them. -/
def ldxForms (n : Byte) (w : Addr) : List (Instr × Operand × Nat) :=
  [(.ldxImm n, .imm n, 2), (.ldxZp n, .mem (.zp n), 3), (.ldxZpy n, .mem (.zpy n), 4),
   (.ldxAbs w, .mem (.abs w), 4), (.ldxAbsy w, .mem (.absy w), 4)]

/-- The forms of LDY with operand and cycles, as the table of 41 R142 lists them. -/
def ldyForms (n : Byte) (w : Addr) : List (Instr × Operand × Nat) :=
  [(.ldyImm n, .imm n, 2), (.ldyZp n, .mem (.zp n), 3), (.ldyZpx n, .mem (.zpx n), 4),
   (.ldyAbs w, .mem (.abs w), 4), (.ldyAbsx w, .mem (.absx w), 4)]

/-- The forms of ADC with operand and cycles, as the table of 42 R161 lists them. -/
def adcForms (n : Byte) (w : Addr) : List (Instr × Operand × Nat) :=
  [(.adcImm n, .imm n, 2), (.adcZp n, .mem (.zp n), 3), (.adcZpx n, .mem (.zpx n), 4),
   (.adcAbs w, .mem (.abs w), 4), (.adcAbsx w, .mem (.absx w), 4), (.adcAbsy w, .mem (.absy w), 4),
   (.adcIzx n, .mem (.izx n), 6), (.adcIzy n, .mem (.izy n), 5), (.adcIzp n, .mem (.izp n), 5)]

/-- The forms of SBC with operand and cycles, as the table of 42 R162 lists them. -/
def sbcForms (n : Byte) (w : Addr) : List (Instr × Operand × Nat) :=
  [(.sbcImm n, .imm n, 2), (.sbcZp n, .mem (.zp n), 3), (.sbcZpx n, .mem (.zpx n), 4),
   (.sbcAbs w, .mem (.abs w), 4), (.sbcAbsx w, .mem (.absx w), 4), (.sbcAbsy w, .mem (.absy w), 4),
   (.sbcIzx n, .mem (.izx n), 6), (.sbcIzy n, .mem (.izy n), 5), (.sbcIzp n, .mem (.izp n), 5)]

/-- The forms of CMP with operand and cycles, as the table of 42 R164 lists them. -/
def cmpForms (n : Byte) (w : Addr) : List (Instr × Operand × Nat) :=
  [(.cmpImm n, .imm n, 2), (.cmpZp n, .mem (.zp n), 3), (.cmpZpx n, .mem (.zpx n), 4),
   (.cmpAbs w, .mem (.abs w), 4), (.cmpAbsx w, .mem (.absx w), 4), (.cmpAbsy w, .mem (.absy w), 4),
   (.cmpIzx n, .mem (.izx n), 6), (.cmpIzy n, .mem (.izy n), 5), (.cmpIzp n, .mem (.izp n), 5)]

/-- The forms of CPX with operand and cycles, as the table of 42 R165 lists them. -/
def cpxForms (n : Byte) (w : Addr) : List (Instr × Operand × Nat) :=
  [(.cpxImm n, .imm n, 2), (.cpxZp n, .mem (.zp n), 3), (.cpxAbs w, .mem (.abs w), 4)]

/-- The forms of CPY with operand and cycles, as the table of 42 R166 lists them. -/
def cpyForms (n : Byte) (w : Addr) : List (Instr × Operand × Nat) :=
  [(.cpyImm n, .imm n, 2), (.cpyZp n, .mem (.zp n), 3), (.cpyAbs w, .mem (.abs w), 4)]

/-- The forms of AND with operand and cycles, as the table of 43 R180 lists them. -/
def andForms (n : Byte) (w : Addr) : List (Instr × Operand × Nat) :=
  [(.andImm n, .imm n, 2), (.andZp n, .mem (.zp n), 3), (.andZpx n, .mem (.zpx n), 4),
   (.andAbs w, .mem (.abs w), 4), (.andAbsx w, .mem (.absx w), 4), (.andAbsy w, .mem (.absy w), 4),
   (.andIzx n, .mem (.izx n), 6), (.andIzy n, .mem (.izy n), 5), (.andIzp n, .mem (.izp n), 5)]

/-- The forms of ORA with operand and cycles, as the table of 43 R181 lists them. -/
def oraForms (n : Byte) (w : Addr) : List (Instr × Operand × Nat) :=
  [(.oraImm n, .imm n, 2), (.oraZp n, .mem (.zp n), 3), (.oraZpx n, .mem (.zpx n), 4),
   (.oraAbs w, .mem (.abs w), 4), (.oraAbsx w, .mem (.absx w), 4), (.oraAbsy w, .mem (.absy w), 4),
   (.oraIzx n, .mem (.izx n), 6), (.oraIzy n, .mem (.izy n), 5), (.oraIzp n, .mem (.izp n), 5)]

/-- The forms of EOR with operand and cycles, as the table of 43 R182 lists them. -/
def eorForms (n : Byte) (w : Addr) : List (Instr × Operand × Nat) :=
  [(.eorImm n, .imm n, 2), (.eorZp n, .mem (.zp n), 3), (.eorZpx n, .mem (.zpx n), 4),
   (.eorAbs w, .mem (.abs w), 4), (.eorAbsx w, .mem (.absx w), 4), (.eorAbsy w, .mem (.absy w), 4),
   (.eorIzx n, .mem (.izx n), 6), (.eorIzy n, .mem (.izy n), 5), (.eorIzp n, .mem (.izp n), 5)]

/-- The forms of BIT with operand and cycles, as the table of 43 R183 lists them. -/
def bitForms (n : Byte) (w : Addr) : List (Instr × Operand × Nat) :=
  [(.bitImm n, .imm n, 2), (.bitZp n, .mem (.zp n), 3), (.bitZpx n, .mem (.zpx n), 4),
   (.bitAbs w, .mem (.abs w), 4), (.bitAbsx w, .mem (.absx w), 4)]

/-- The memory forms of STA with operand and cycles, as the table of 41 R143 lists them. -/
def staForms (n : Byte) (w : Addr) : List (Instr × MemOperand × Nat) :=
  [(.staZp n, .zp n, 3), (.staZpx n, .zpx n, 4), (.staAbs w, .abs w, 4),
   (.staAbsx w, .absx w, 5), (.staAbsy w, .absy w, 5), (.staIzx n, .izx n, 6),
   (.staIzy n, .izy n, 6), (.staIzp n, .izp n, 5)]

/-- The memory forms of STX with operand and cycles, as the table of 41 R144 lists them. -/
def stxForms (n : Byte) (w : Addr) : List (Instr × MemOperand × Nat) :=
  [(.stxZp n, .zp n, 3), (.stxZpy n, .zpy n, 4), (.stxAbs w, .abs w, 4)]

/-- The memory forms of STY with operand and cycles, as the table of 41 R145 lists them. -/
def styForms (n : Byte) (w : Addr) : List (Instr × MemOperand × Nat) :=
  [(.styZp n, .zp n, 3), (.styZpx n, .zpx n, 4), (.styAbs w, .abs w, 4)]

/-- The memory forms of STZ with operand and cycles, as the table of 41 R146 lists them. -/
def stzForms (n : Byte) (w : Addr) : List (Instr × MemOperand × Nat) :=
  [(.stzZp n, .zp n, 3), (.stzZpx n, .zpx n, 4), (.stzAbs w, .abs w, 4),
   (.stzAbsx w, .absx w, 5)]

/-- The memory forms of INC with operand and cycles, as the table of 42 R167 lists them. -/
def incForms (n : Byte) (w : Addr) : List (Instr × MemOperand × Nat) :=
  [(.incZp n, .zp n, 5), (.incZpx n, .zpx n, 6), (.incAbs w, .abs w, 6),
   (.incAbsx w, .absx w, 7)]

/-- The memory forms of DEC with operand and cycles, as the table of 42 R168 lists them. -/
def decForms (n : Byte) (w : Addr) : List (Instr × MemOperand × Nat) :=
  [(.decZp n, .zp n, 5), (.decZpx n, .zpx n, 6), (.decAbs w, .abs w, 6),
   (.decAbsx w, .absx w, 7)]

/-- The memory forms of TRB with operand and cycles, as the table of 43 R184 lists them. -/
def trbForms (n : Byte) (w : Addr) : List (Instr × MemOperand × Nat) :=
  [(.trbZp n, .zp n, 5), (.trbAbs w, .abs w, 6)]

/-- The memory forms of TSB with operand and cycles, as the table of 43 R185 lists them. -/
def tsbForms (n : Byte) (w : Addr) : List (Instr × MemOperand × Nat) :=
  [(.tsbZp n, .zp n, 5), (.tsbAbs w, .abs w, 6)]

/-- The memory forms of ASL with operand and cycles, as the table of 43 R186 lists them. -/
def aslForms (n : Byte) (w : Addr) : List (Instr × MemOperand × Nat) :=
  [(.aslZp n, .zp n, 5), (.aslZpx n, .zpx n, 6), (.aslAbs w, .abs w, 6),
   (.aslAbsx w, .absx w, 7)]

/-- The memory forms of LSR with operand and cycles, as the table of 43 R187 lists them. -/
def lsrForms (n : Byte) (w : Addr) : List (Instr × MemOperand × Nat) :=
  [(.lsrZp n, .zp n, 5), (.lsrZpx n, .zpx n, 6), (.lsrAbs w, .abs w, 6),
   (.lsrAbsx w, .absx w, 7)]

/-- The memory forms of ROL with operand and cycles, as the table of 43 R188 lists them. -/
def rolForms (n : Byte) (w : Addr) : List (Instr × MemOperand × Nat) :=
  [(.rolZp n, .zp n, 5), (.rolZpx n, .zpx n, 6), (.rolAbs w, .abs w, 6),
   (.rolAbsx w, .absx w, 7)]

/-- The memory forms of ROR with operand and cycles, as the table of 43 R189 lists them. -/
def rorForms (n : Byte) (w : Addr) : List (Instr × MemOperand × Nat) :=
  [(.rorZp n, .zp n, 5), (.rorZpx n, .zpx n, 6), (.rorAbs w, .abs w, 6),
   (.rorAbsx w, .absx w, 7)]

/-- The conditional branches with the flag each tests and the value that takes it (44 R206 to R213). -/
def branchForms (n : Byte) : List (Instr × Flag × Bool) :=
  [(.bcc n, .c, false), (.bcs n, .c, true), (.beq n, .z, true), (.bne n, .z, false)] ++
  [(.bmi n, .n, true), (.bpl n, .n, false), (.bvc n, .v, false), (.bvs n, .v, true)]

/-- The branch `i` is taken in `s` (44 R205 to R214). -/
def branchTaken (i : Instr) (s : State) : Bool :=
  match i with
  | .bcc _ => getFlag s.p .c == false
  | .bcs _ => getFlag s.p .c == true
  | .beq _ => getFlag s.p .z == true
  | .bne _ => getFlag s.p .z == false
  | .bmi _ => getFlag s.p .n == true
  | .bpl _ => getFlag s.p .n == false
  | .bvc _ => getFlag s.p .v == false
  | .bvs _ => getFlag s.p .v == true
  | .bra _ => true
  | _ => false

/-- The base cycle counts of the 256 opcode bytes, row by row of the map of 30 R104, 2 for an unknown opcode (70 R350,
R351). -/
def opcodeCycles : List Nat :=
  [7, 6, 2, 2, 5, 3, 5, 2, 3, 2, 2, 2, 6, 4, 6, 2] ++
  [2, 5, 5, 2, 5, 4, 6, 2, 2, 4, 2, 2, 6, 4, 7, 2] ++
  [6, 6, 2, 2, 3, 3, 5, 2, 4, 2, 2, 2, 4, 4, 6, 2] ++
  [2, 5, 5, 2, 4, 4, 6, 2, 2, 4, 2, 2, 4, 4, 7, 2] ++
  [6, 6, 2, 2, 2, 3, 5, 2, 3, 2, 2, 2, 3, 4, 6, 2] ++
  [2, 5, 5, 2, 2, 4, 6, 2, 2, 4, 3, 2, 2, 4, 7, 2] ++
  [6, 6, 2, 2, 3, 3, 5, 2, 4, 2, 2, 2, 5, 4, 6, 2] ++
  [2, 5, 5, 2, 4, 4, 6, 2, 2, 4, 4, 2, 6, 4, 7, 2] ++
  [2, 6, 2, 2, 3, 3, 3, 2, 2, 2, 2, 2, 4, 4, 4, 2] ++
  [2, 6, 5, 2, 4, 4, 4, 2, 2, 5, 2, 2, 4, 5, 5, 2] ++
  [2, 6, 2, 2, 3, 3, 3, 2, 2, 2, 2, 2, 4, 4, 4, 2] ++
  [2, 5, 5, 2, 4, 4, 4, 2, 2, 4, 2, 2, 4, 4, 4, 2] ++
  [2, 6, 2, 2, 3, 3, 5, 2, 2, 2, 2, 2, 4, 4, 6, 2] ++
  [2, 5, 5, 2, 2, 4, 6, 2, 2, 4, 3, 2, 2, 4, 7, 2] ++
  [2, 6, 2, 2, 3, 3, 5, 2, 2, 2, 2, 2, 4, 4, 6, 2] ++
  [2, 5, 5, 2, 2, 4, 6, 2, 2, 4, 4, 2, 2, 4, 7, 2]

/-- The mnemonic of an instruction (30 R105); the unknown opcodes have none of their own. -/
def mnemonicOf : Instr → String
  | .ldaImm _ | .ldaZp _ | .ldaZpx _ | .ldaAbs _ | .ldaAbsx _ | .ldaAbsy _ | .ldaIzx _ | .ldaIzy _ | .ldaIzp _ => "LDA"
  | .ldxImm _ | .ldxZp _ | .ldxZpy _ | .ldxAbs _ | .ldxAbsy _ => "LDX"
  | .ldyImm _ | .ldyZp _ | .ldyZpx _ | .ldyAbs _ | .ldyAbsx _ => "LDY"
  | .staZp _ | .staZpx _ | .staAbs _ | .staAbsx _ | .staAbsy _ | .staIzx _ | .staIzy _ | .staIzp _ => "STA"
  | .stxZp _ | .stxZpy _ | .stxAbs _ => "STX"
  | .styZp _ | .styZpx _ | .styAbs _ => "STY"
  | .stzZp _ | .stzZpx _ | .stzAbs _ | .stzAbsx _ => "STZ"
  | .tax => "TAX"
  | .tay => "TAY"
  | .txa => "TXA"
  | .tya => "TYA"
  | .tsx => "TSX"
  | .txs => "TXS"
  | .adcImm _ | .adcZp _ | .adcZpx _ | .adcAbs _ | .adcAbsx _ | .adcAbsy _ | .adcIzx _ | .adcIzy _ | .adcIzp _ => "ADC"
  | .sbcImm _ | .sbcZp _ | .sbcZpx _ | .sbcAbs _ | .sbcAbsx _ | .sbcAbsy _ | .sbcIzx _ | .sbcIzy _ | .sbcIzp _ => "SBC"
  | .cmpImm _ | .cmpZp _ | .cmpZpx _ | .cmpAbs _ | .cmpAbsx _ | .cmpAbsy _ | .cmpIzx _ | .cmpIzy _ | .cmpIzp _ => "CMP"
  | .cpxImm _ | .cpxZp _ | .cpxAbs _ => "CPX"
  | .cpyImm _ | .cpyZp _ | .cpyAbs _ => "CPY"
  | .incZp _ | .incZpx _ | .incAbs _ | .incAbsx _ => "INC"
  | .decZp _ | .decZpx _ | .decAbs _ | .decAbsx _ => "DEC"
  | .inx => "INX"
  | .iny => "INY"
  | .dex => "DEX"
  | .dey => "DEY"
  | .ina => "INA"
  | .dea => "DEA"
  | .andImm _ | .andZp _ | .andZpx _ | .andAbs _ | .andAbsx _ | .andAbsy _ | .andIzx _ | .andIzy _ | .andIzp _ => "AND"
  | .oraImm _ | .oraZp _ | .oraZpx _ | .oraAbs _ | .oraAbsx _ | .oraAbsy _ | .oraIzx _ | .oraIzy _ | .oraIzp _ => "ORA"
  | .eorImm _ | .eorZp _ | .eorZpx _ | .eorAbs _ | .eorAbsx _ | .eorAbsy _ | .eorIzx _ | .eorIzy _ | .eorIzp _ => "EOR"
  | .bitImm _ | .bitZp _ | .bitZpx _ | .bitAbs _ | .bitAbsx _ => "BIT"
  | .trbZp _ | .trbAbs _ => "TRB"
  | .tsbZp _ | .tsbAbs _ => "TSB"
  | .aslAcc | .aslZp _ | .aslZpx _ | .aslAbs _ | .aslAbsx _ => "ASL"
  | .lsrAcc | .lsrZp _ | .lsrZpx _ | .lsrAbs _ | .lsrAbsx _ => "LSR"
  | .rolAcc | .rolZp _ | .rolZpx _ | .rolAbs _ | .rolAbsx _ => "ROL"
  | .rorAcc | .rorZp _ | .rorZpx _ | .rorAbs _ | .rorAbsx _ => "ROR"
  | .jmpAbs _ | .jmpInd _ | .jmpIax _ => "JMP"
  | .jsr _ => "JSR"
  | .rts => "RTS"
  | .bcc _ => "BCC"
  | .bcs _ => "BCS"
  | .beq _ => "BEQ"
  | .bne _ => "BNE"
  | .bmi _ => "BMI"
  | .bpl _ => "BPL"
  | .bvc _ => "BVC"
  | .bvs _ => "BVS"
  | .bra _ => "BRA"
  | .pha => "PHA"
  | .pla => "PLA"
  | .phx => "PHX"
  | .plx => "PLX"
  | .phy => "PHY"
  | .ply => "PLY"
  | .php => "PHP"
  | .plp => "PLP"
  | .clc => "CLC"
  | .sec => "SEC"
  | .cli => "CLI"
  | .sei => "SEI"
  | .cld => "CLD"
  | .sed => "SED"
  | .clv => "CLV"
  | .nop => "NOP"
  | .brk => "BRK"
  | .rti => "RTI"
  | .unknown _ => "UNKNOWN"

/-- The instructions that write each flag, as the table of 10 R24 lists them (RESET and the IRQ sequence apart); N is
"the same as Z except BIT #imm, TRB and TSB". -/
def flagWriters : Flag → List String
  | .c => ["ADC", "SBC", "ASL", "LSR", "ROL", "ROR", "CMP", "CPX", "CPY", "CLC", "SEC", "PLP", "RTI"]
  | .z =>
    ["LDA", "LDX", "LDY", "PLA", "PLX", "PLY", "TAX", "TAY", "TXA", "TYA", "TSX", "ADC", "SBC", "AND", "ORA", "EOR"] ++
    ["INC", "DEC", "INA", "DEA", "INX", "INY", "DEX", "DEY", "ASL", "LSR", "ROL", "ROR", "CMP", "CPX", "CPY", "BIT"] ++
    ["TRB", "TSB", "PLP", "RTI"]
  | .n =>
    ["LDA", "LDX", "LDY", "PLA", "PLX", "PLY", "TAX", "TAY", "TXA", "TYA", "TSX", "ADC", "SBC", "AND", "ORA", "EOR"] ++
    ["INC", "DEC", "INA", "DEA", "INX", "INY", "DEX", "DEY", "ASL", "LSR", "ROL", "ROR", "CMP", "CPX", "CPY", "BIT"] ++
    ["PLP", "RTI"]
  | .v => ["ADC", "SBC", "BIT", "CLV", "PLP", "RTI"]
  | .i => ["SEI", "CLI", "BRK", "PLP", "RTI"]
  | .d => ["SED", "CLD", "PLP", "RTI"]
  | .b => ["PLP", "RTI"]

/-- The instructions that write each register, as 10 R20 and R21 list them; of ASL, LSR, ROL and ROR the accumulator
form alone writes `A`. -/
def registerWriters : Reg → List String
  | .a => ["LDA", "PLA", "TXA", "TYA", "ADC", "SBC", "AND", "ORA", "EOR", "INA", "DEA", "ASL", "LSR", "ROL", "ROR"]
  | .x => ["LDX", "TAX", "TSX", "INX", "DEX", "PLX"]
  | .y => ["LDY", "TAY", "INY", "DEY", "PLY"]
  | .sp => ["PHA", "PHP", "PHX", "PHY", "PLA", "PLP", "PLX", "PLY", "TXS", "BRK", "JSR", "RTS", "RTI"]

end Sys2Proof.Machine
end

