-- ==== Sys2Proof/Certificates/Slice0/Obligations.lean ====
section
/-! DEFINITION. The statements for the provers: what the rules of the spec say the machine does. A statement that rests
on a decision the spec marks as its own, or on a value the model names, says so and names the log entry. -/

section Statements

open Sys2Proof Sys2Proof.Machine

/-- For every well-formed instruction, with every operand value, and whatever bytes follow, the decoder reads exactly
that instruction from its encoding and leaves the bytes that follow. (30_encoding.md §1 (R100, R101), 30_encoding.md
§3 (R104, R105)) -/
def Obligations.DecodeEncode : Prop :=
  ∀ (i : Instr) (rest : List Byte), WellFormed i → decode (encode i ++ rest) = .ok (i, rest)

/-- Whenever the decoder reads an instruction from some bytes, that instruction is well-formed, and its encoding
followed by the rest is those bytes: no bit of an encoding is ignored and no two byte strings share a meaning.
(30_encoding.md §1 (R100, R101), 30_encoding.md §2 (R103)) -/
def Obligations.DecodeIsFaithful : Prop :=
  ∀ (bytes : List Byte) (i : Instr) (rest : List Byte),
    decode bytes = .ok (i, rest) → WellFormed i ∧ encode i ++ rest = bytes

/-- For every opcode byte there is one addressing mode such that, whatever bytes follow, the decoder reads an
instruction with that opcode, that mode and a length of 1, 2 or 3 bytes; it is an unknown opcode, one byte long (the
length is decision D8 of the spec, log entry 1), exactly for the 78 bytes of 30 R106. (30_encoding.md §1 (R100, R102),
30_encoding.md §3 (R104, R106)) -/
def Obligations.OpcodeDeterminesInstruction : Prop :=
  ∀ op : Byte, ∃ m : Mode, ∀ (n1 n2 : Byte) (rest : List Byte), ∃ i : Instr,
    decode (op :: n1 :: n2 :: rest) = .ok (i, (n1 :: n2 :: rest).drop (i.length - 1)) ∧ i.opcode = op ∧ i.mode = m ∧
    1 ≤ i.length ∧ i.length ≤ 3 ∧ (i = .unknown op ↔ op ∈ unknownOpcodes) ∧ (op ∈ unknownOpcodes → i.length = 1)

/-- A9 42 is LDA #$42, 8D 00 20 is STA $2000, AD 00 20 is LDA $2000; and one word of every family, written from the
opcode map: 69 17, 24 10, 0A, D0 FE, 20 34 12, 48, 58, 00, 6C FF 20, 92 20 and the unknown 02. (30_encoding.md §1
(R101), 30_encoding.md §3 (R104)) -/
def Obligations.SpecEncodings : Prop :=
  decode [0xA9, 0x42] = .ok (.ldaImm 0x42, []) ∧ decode [0x8D, 0x00, 0x20] = .ok (.staAbs 0x2000, []) ∧
  decode [0xAD, 0x00, 0x20] = .ok (.ldaAbs 0x2000, []) ∧ decode [0x69, 0x17] = .ok (.adcImm 0x17, []) ∧
  decode [0x24, 0x10] = .ok (.bitZp 0x10, []) ∧ decode [0x0A] = .ok (.aslAcc, []) ∧
  decode [0xD0, 0xFE] = .ok (.bne 0xFE, []) ∧ decode [0x20, 0x34, 0x12] = .ok (.jsr 0x1234, []) ∧
  decode [0x48] = .ok (.pha, []) ∧ decode [0x58] = .ok (.cli, []) ∧ decode [0x00] = .ok (.brk, []) ∧
  decode [0x6C, 0xFF, 0x20] = .ok (.jmpInd 0x20FF, []) ∧ decode [0x92, 0x20] = .ok (.staIzp 0x20, []) ∧
  decode [0x02] = .ok (.unknown 0x02, [])

/-- With the machine on, no interrupt latched and the three bytes at PC in RAM, if those bytes decode to an
instruction, the step is exec of that instruction on the state whose PC is already past it. (60_exceptions.md §1
(R311), 40_addressing_modes.md §1 (R120), 10_state.md §1 (R22)) -/
def Obligations.StepRunsDecodedInstruction : Prop :=
  ∀ (s : State) (i : Instr) (rest : List Byte), s.power = .on → s.latches = ⟨false, false, false⟩ →
    isRam s.bankMode s.pc → isRam s.bankMode (s.pc + 1) → isRam s.bankMode (s.pc + 2) →
    decode [s.ramAt s.pc.toNat, s.ramAt (s.pc + 1).toNat, s.ramAt (s.pc + 2).toNat] = .ok (i, rest) →
      step s = exec i (s.setPc (s.pc + BitVec.ofNat 16 i.length))

/-- In every state with the machine on there is a well-formed instruction whose encoding is the bytes that its fetches
read through the bus, one by one, after the interrupt check, and the step is exec of it on the state after those
fetches. That a step executes an instruction even when the check serviced an event is decision D1 of the spec (log
entry 23). (60_exceptions.md §1 (R311), 40_addressing_modes.md §1 (R120)) -/
def Obligations.StepExecutesFetchedInstruction : Prop :=
  ∀ s : State, s.power = .on → ∃ i : Instr, WellFormed i ∧
    (fetchBytes i.length (interruptCheck s)).1 = encode i ∧
    step s = exec i (fetchBytes i.length (interruptCheck s)).2

/-- In every state: with the machine on, the step answers a next state, the machine is still on, and at most the IRQ
latch is set in it (an instruction can assert no other); with the machine off, the step is the fault poweredOff.
(60_exceptions.md §1 (R310, R311), 60_exceptions.md §4 (R332), 93_implementation_defined.md Part 1) -/
def Obligations.StepNeverStops : Prop :=
  ∀ s : State,
    (s.power = .on → ∃ t, step s = .next t ∧ t.power = .on ∧ t.latches.reset = false ∧ t.latches.nmi = false) ∧
    (s.power = .off → step s = .fault .poweredOff)

/-- For every well-formed instruction and state, exec answers a next state whose clock is greater by the count of the
opcode map, one more for a branch that is taken; whatever the addresses, no page crossing adds anything. The counts
are those the spec marks as general knowledge (log entry 14). (70_reset_and_hazards.md §3 (R350, R351)) -/
def Obligations.InstructionCycles : Prop :=
  ∀ (i : Instr) (s : State), WellFormed i → ∃ t, exec i s = .next t ∧
    t.clock = s.clock + opcodeCycles.getD i.opcode.toNat 0 + (if branchTaken i s = true then 1 else 0)

/-- Every step adds at least 2 and at most 21 cycles to the clock, and changes no byte of ROM and no byte of
RAM[0xC000 .. 0xC0FF]; every instruction by itself adds at least 2 and at most 7 cycles. (70_reset_and_hazards.md §3
(R354), 10_state.md §3 (R30, R31)) -/
def Obligations.EveryStep : Prop :=
  (∀ s t : State, step s = .next t →
    s.clock + 2 ≤ t.clock ∧ t.clock ≤ s.clock + 21 ∧ (∀ k : Nat, t.romAt k = s.romAt k) ∧
      ∀ b : Nat, 0xC000 ≤ b → b < 0xC100 → t.ramAt b = s.ramAt b) ∧
  (∀ (i : Instr) (s t : State), exec i s = .next t → s.clock + 2 ≤ t.clock ∧ t.clock ≤ s.clock + 7)

/-- State.reset holds what the third column of 10 R38 gives: A, X, Y 0x00, S 0xFF, P 0x20, no latch set, clock and
pendingIRQ 0, RAM 0x00 but 0xFF in the two hi-res pages, BANK_ROM, MONO, page 1, no key pressed, an empty tape that
does not play, the speaker line low; and PC is the reset vector of its ROM. The values of clock and pendingIRQ (D4)
and of colour mode, page, KBIN, query, key, tape, CASIN and speaker (D34) are decisions of the spec (log entry 5);
that State.reset is that column, and with a blank ROM image, is the choice of the model (log entries 2, 3).
(10_state.md §5 (R38), 60_exceptions.md §1 (R313)) -/
def Obligations.ResetState : Prop :=
  let s := State.reset
  s.a = 0x00 ∧ s.x = 0x00 ∧ s.y = 0x00 ∧ s.sp = 0xFF ∧ s.p = 0x20 ∧ s.pc = s.vectorAt 0xFFFC ∧
  s.latches = ⟨false, false, false⟩ ∧ s.clock = 0 ∧ s.pendingIrq = 0 ∧
  (∀ b : Nat, b < 0x10000 →
    s.ramAt b = if (0x2000 ≤ b ∧ b < 0x4000) ∨ (0xA000 ≤ b ∧ b < 0xC000) then 0xFF else 0x00) ∧
  s.bankMode = .rom ∧ s.vid.colorMode = .mono ∧ s.vid.hiresPage = .page1 ∧ s.kb.kbin = 0x00 ∧
  s.kb.ctrlQuery = false ∧ s.kb.clear = true ∧ s.kb.ctrl = false ∧ s.kb.shift = false ∧ s.tape.wave = [] ∧
  s.tape.head = 0 ∧ s.tape.play = false ∧ s.tape.active = false ∧ s.tape.casin = .low ∧ s.snd.line = .low ∧
  s.snd.last = 0

/-- The RESET sequence clears A, X and Y, sets P to 0x20 and S to 0xFF, loads PC from the vector at 0xFFFC as the bus
routes it (ROM in BANK_ROM mode, RAM in BANK_RAM mode), clears the RESET latch, and changes nothing else: nothing is
pushed, and clock, pendingIRQ and the other latches stay (decision D3 of the spec, log entry 23). (60_exceptions.md §1
(R313), 20_memory.md §3 (R62)) -/
def Obligations.ResetSequence : Prop :=
  ∀ s : State, resetSequence s =
    { s with
      a := 0x00, x := 0x00, y := 0x00, p := 0x20, sp := 0xFF, pc := s.vectorAt 0xFFFC,
      latches := { s.latches with reset := false } }

/-- The NMI sequence pushes PC (high byte first) and P with bit 5 set and B as held, loads PC from the vector at
0xFFFA, adds 7 cycles, clears the NMI latch, lowers S by 3, and changes nothing else, P included (I and B as decision
D5 of the spec has them, log entry 23). With I set, the IRQ sequence adds one to pendingIRQ, clears the IRQ latch, and
changes nothing else, no cycle charged (decision D6 of the spec, log entry 23). With I clear it pushes PC (high byte
first) and P with B = 0 and bit 5 = 1, sets I alone in P, loads PC from the vector at 0xFFFE, adds 7 cycles, clears
the latch, lowers S by 3, and changes nothing else. (60_exceptions.md §1 (R314, R315), 60_exceptions.md §2 (R318)) -/
def Obligations.NmiAndIrq : Prop :=
  (∀ s : State, ∃ ram : Memory,
      nmiSequence s =
        { s with
          sp := s.sp - 3, pc := s.vectorAt 0xFFFA, clock := s.clock + 7, ram := ram,
          latches := { s.latches with nmi := false } } ∧
      framePushed s.pc (s.p ||| 0x20) s (nmiSequence s)) ∧
  (∀ s : State,
      (getFlag s.p .i = true →
        irqSequence s = { s with pendingIrq := s.pendingIrq + 1, latches := { s.latches with irq := false } }) ∧
      (getFlag s.p .i = false → ∃ ram : Memory,
        irqSequence s =
          { s with
            sp := s.sp - 3, p := s.p ||| 0x04, pc := s.vectorAt 0xFFFE, clock := s.clock + 7, ram := ram,
            latches := { s.latches with irq := false } } ∧
        framePushed s.pc ((s.p &&& 0xEF) ||| 0x20) s (irqSequence s)))

/-- The interrupt check leaves all three latches clear; it does nothing at all when none is set; and whatever it
services, it changes no ROM byte, no RAM byte outside page 1, no device and no output (that it services every latch is
decision D2 of the spec, log entry 23). With NMI and IRQ latched and I clear, one check pushes the NMI frame and on
top of it the IRQ frame with the NMI vector as return address, and goes to the IRQ handler with I set, 14 cycles
later. With RESET and NMI latched, the reset runs first and the NMI frame holds the reset vector as return address and
0x20 as status. (60_exceptions.md §1 (R312), 60_exceptions.md §2 (R319)) -/
def Obligations.InterruptCheck : Prop :=
  (∀ s : State,
      (interruptCheck s).latches = ⟨false, false, false⟩ ∧
      (s.latches = ⟨false, false, false⟩ → interruptCheck s = s) ∧
      (interruptCheck s).rom = s.rom ∧ (interruptCheck s).power = s.power ∧ devicesOf s (interruptCheck s) ∧
      ∀ b : Nat, b < 0x0100 ∨ 0x0200 ≤ b → (interruptCheck s).ramAt b = s.ramAt b) ∧
  ((∀ s : State, s.latches = ⟨false, true, true⟩ → getFlag s.p .i = false →
      let t := interruptCheck s
      t.pc = s.vectorAt 0xFFFE ∧ t.sp = s.sp - 6 ∧ t.p = s.p ||| 0x04 ∧ t.clock = s.clock + 14 ∧
      t.ramAt (stackSlot s.sp) = BitVec.ofNat 8 (s.pc.toNat / 256) ∧
      t.ramAt (stackSlot (s.sp - 1)) = BitVec.ofNat 8 (s.pc.toNat % 256) ∧
      t.ramAt (stackSlot (s.sp - 2)) = s.p ||| 0x20 ∧
      t.ramAt (stackSlot (s.sp - 3)) = BitVec.ofNat 8 ((s.vectorAt 0xFFFA).toNat / 256) ∧
      t.ramAt (stackSlot (s.sp - 4)) = BitVec.ofNat 8 ((s.vectorAt 0xFFFA).toNat % 256) ∧
      t.ramAt (stackSlot (s.sp - 5)) = (s.p &&& 0xEF) ||| 0x20) ∧
    (∀ s : State, s.latches = ⟨true, true, false⟩ →
      let t := interruptCheck s
      t.pc = s.vectorAt 0xFFFA ∧ t.sp = 0xFC ∧ t.p = 0x20 ∧ t.clock = s.clock + 7 ∧
      t.ramAt 0x01FF = BitVec.ofNat 8 ((s.vectorAt 0xFFFC).toNat / 256) ∧
      t.ramAt 0x01FE = BitVec.ofNat 8 ((s.vectorAt 0xFFFC).toNat % 256) ∧ t.ramAt 0x01FD = 0x20))

/-- CLI completes in 2 cycles, clears I alone in P, and with pendingIRQ positive lowers it by one and sets the IRQ
latch. PLP completes in 4 cycles, pulls P with bit 5 forced to 1 and bit 4 as pulled (decision D15 of the spec, log
entry 23), raises S by 1, and does the same replay exactly when the pulled I is clear, whether or not I was set before
(decision D7). Neither changes anything else. (46_flags_system.md §1 (R232), 45_stack.md §3 (R225), 60_exceptions.md
§1 (R316)) -/
def Obligations.ReplayOfDeferredIrqs : Prop :=
  ∀ s : State,
    (∃ p' : Byte, onlyFlagSet .i false s.p p' ∧
      exec .cli s = .next (if 0 < s.pendingIrq then
        { s with p := p', clock := s.clock + 2, pendingIrq := s.pendingIrq - 1, latches := { s.latches with irq := true } }
      else { s with p := p', clock := s.clock + 2 })) ∧
    (let v := s.ramAt (stackSlot (s.sp + 1))
    exec .plp s = .next (if v.getLsbD 2 = false ∧ 0 < s.pendingIrq then
        { s with
          p := v ||| 0x20, sp := s.sp + 1, clock := s.clock + 4, pendingIrq := s.pendingIrq - 1,
          latches := { s.latches with irq := true } }
      else { s with p := v ||| 0x20, sp := s.sp + 1, clock := s.clock + 4 }))

/-- With PC at PC0 + 1 (past the opcode), BRK pushes PC0 + 2, high byte first, and P with bits 4 and 5 set, lowers S
by 3, sets I alone in P (D is left, decision D14 of the spec, log entry 23), loads PC from the vector at 0xFFFE in the
memory the bus routes it to, adds 7 cycles, and changes nothing else. (46_flags_system.md §2 (R240), 60_exceptions.md
§2 (R318)) -/
def Obligations.BreakEntersHandler : Prop :=
  ∀ s : State, ∃ t, exec .brk s = .next t ∧
    t = { s with sp := s.sp - 3, p := s.p ||| 0x04, pc := s.vectorAt 0xFFFE, clock := s.clock + 7, ram := t.ram } ∧
    framePushed (s.pc + 1) (s.p ||| 0x30) s t

/-- RTI pulls the status (bit 5 forced to 1, bit 4 as pulled, decision D15 of the spec, log entry 23), then the low
and the high byte of PC with nothing added, raises S by 3, takes 6 cycles, and changes nothing else, pendingIRQ and
the latches included. From every state, BRK and then RTI bring back every register and device: PC is PC0 + 2, S is as
before, P is as before but for B (set, as pushed) and bit 5; only the three stack bytes and the clock (13 cycles more)
differ. (46_flags_system.md §2 (R240, R241), 60_exceptions.md §2 (R318, R321)) -/
def Obligations.ReturnFromInterrupt : Prop :=
  (∀ s : State, exec .rti s = .next
      { s with
        p := s.ramAt (stackSlot (s.sp + 1)) ||| 0x20
        pc := BitVec.ofNat 16
          ((s.ramAt (stackSlot (s.sp + 3))).toNat * 256 + (s.ramAt (stackSlot (s.sp + 2))).toNat)
        sp := s.sp + 3
        clock := s.clock + 6 }) ∧
  (∀ s : State, ∃ t u, exec .brk s = .next t ∧ exec .rti t = .next u ∧
      u = { s with pc := s.pc + 1, p := s.p ||| 0x30, clock := s.clock + 13, ram := u.ram } ∧
      ∀ b, b ≠ stackSlot s.sp → b ≠ stackSlot (s.sp - 1) → b ≠ stackSlot (s.sp - 2) → u.ramAt b = s.ramAt b)

/-- Where the bus has RAM: a read gives RAM[addr] and changes nothing; a write followed by a read gives the byte
written; the write changes no other byte and nothing but RAM. RAM.clear() leaves every cell 0x00. (R55) -/
def Obligations.RamDevice : Prop :=
  (∀ (s : State) (addr : Addr) (v : Byte), isRam s.bankMode addr →
    memRead addr s = (s.ramAt addr.toNat, s) ∧
    memRead addr (memWrite addr v s) = (v, memWrite addr v s) ∧
    memWrite addr v s = { s with ram := (memWrite addr v s).ram } ∧
    ∀ b, b ≠ addr.toNat → (memWrite addr v s).ramAt b = s.ramAt b) ∧
  ∀ (s : State) (b : Nat), (s.setRam clearedRam).ramAt b = 0x00

/-- Where the bus has ROM (0xC100 to 0xFFFF in BANK_ROM mode): a read gives ROM[addr - 0xC000] and changes nothing; a
write changes nothing at all, not the RAM cell of the same address either. At each of the addresses 20 R61 lists no
device is attached: a read gives 0xFF and changes nothing, a write changes nothing. And no bus write, wherever it
goes, reaches RAM[0xC000 .. 0xC0FF]. (R56, R61) -/
def Obligations.RomAndOpenBus : Prop :=
  (∀ (s : State) (addr : Addr) (v : Byte), isRom s.bankMode addr →
      memRead addr s = (s.romAt (addr.toNat - 0xC000), s) ∧ memWrite addr v s = s) ∧
  ((∀ (s : State) (addr : Addr) (v : Byte), isOpenBus addr → memRead addr s = (0xFF, s) ∧ memWrite addr v s = s) ∧
    ∀ (s : State) (addr : Addr) (v : Byte) (b : Nat), 0xC000 ≤ b → b < 0xC100 → (memWrite addr v s).ramAt b = s.ramAt b)

/-- A read or a write of 0xC05A selects BANK_ROM, of 0xC05B BANK_RAM, of 0xC080 to 0xC08B the bank of the open
parameter (decision D19 of the spec, log entry 9); the value written is ignored and nothing else changes. That a read
returns the next byte of Config.ioReadValue and moves the counter draws on is the choice of the model (decision D20,
log entry 8). For every window address: after a read of 0xC05B a write there is retained and read back; after a read
of 0xC05A the ROM byte is read again; after returning to BANK_RAM the retained byte is visible again. (20_memory.md §4
(R65, R66, R69, R70)) -/
def Obligations.BankSwitch : Prop :=
  (∀ (s : State) (addr : Addr) (v : Byte) (target : BankMode),
      (addr = 0xC05A ∧ target = .rom ∨ addr = 0xC05B ∧ target = .ram ∨
        0xC080 ≤ addr.toNat ∧ addr.toNat ≤ 0xC08B ∧ target = Config.bankswMirrorSelect addr) →
      memRead addr s = (Config.ioReadValue s.draws, { s with bankMode := target, draws := s.draws + 1 }) ∧
      memWrite addr v s = { s with bankMode := target }) ∧
  (∀ (s : State) (addr : Addr) (v : Byte), 0xC100 ≤ addr.toNat →
      let s1 := memWrite addr v (memRead 0xC05B s).2
      let s2 := (memRead 0xC05A s1).2
      let s3 := (memRead 0xC05B s2).2
      (memRead addr s1).1 = v ∧ (memRead addr s2).1 = s.romAt (addr.toNat - 0xC000) ∧ (memRead addr s3).1 = v)

/-- Whatever the address: a read leaves the registers, P, PC, the system registers, the clock, both memories, the
framebuffer and the scan as they were; so does a write, but for the RAM byte at its address, which takes the value
exactly where the bus has RAM. (20_memory.md §5 (R78, R79), 20_memory.md §1 (R51, R52)) -/
def Obligations.BusAccessFrame : Prop :=
  ∀ (s : State) (addr : Addr) (v : Byte),
    (let t := (memRead addr s).2
    registersKeptExcept [] s t ∧ t.p = s.p ∧ t.pc = s.pc ∧ t.clock = s.clock ∧ systemKept s t ∧ t.ram = s.ram ∧
      t.rom = s.rom ∧ t.vid.fb = s.vid.fb ∧ t.vid.scanRow = s.vid.scanRow ∧ t.vid.scanLine = s.vid.scanLine) ∧
    (let t := memWrite addr v s
    registersKeptExcept [] s t ∧ t.p = s.p ∧ t.pc = s.pc ∧ t.clock = s.clock ∧ systemKept s t ∧ byteStored addr v s t ∧
      t.vid.fb = s.vid.fb ∧ t.vid.scanRow = s.vid.scanRow ∧ t.vid.scanLine = s.vid.scanLine)

/-- For every memory operand the effective address is the number the spec computes (zero-page sums modulo 256,
absolute sums modulo 65536, pointers low byte first with the high byte from (zp + 1) & 0xFF), and computing it changes
nothing. A load is one read of it, a store one write with no read, a modify one read and then one write of the same
address; an immediate is the operand itself. The wrap of zero-page,X and zero-page,Y is decision D16 of the spec, and
that an instruction makes exactly these accesses (one read, no read of a stored-to target, one read then one write) is
its decision D12 (both log entry 24). (40_addressing_modes.md §2 to §5 (R122 to R131), 40_addressing_modes.md §7
(R135)) -/
def Obligations.OperandAccess : Prop :=
  ∀ (m : MemOperand) (s : State) (v : Byte) (f : Byte → Byte → Byte × Byte),
    effectiveAddress m s = (BitVec.ofNat 16 (eaNumber m s), s) ∧ eaNumber m s < 65536 ∧
    load (.imm v) s = (v, s) ∧
    load (.mem m) s = memRead (BitVec.ofNat 16 (eaNumber m s)) s ∧
    store m v s = memWrite (BitVec.ofNat 16 (eaNumber m s)) v s ∧
    modify m f s =
      (let old := memRead (BitVec.ofNat 16 (eaNumber m s)) s
      let r := f old.1 s.p
      (memWrite (BitVec.ofNat 16 (eaNumber m s)) r.1 old.2).setP r.2)

/-- Push stores the byte at 0x0100 | S and then takes 1 from S modulo 256, changing nothing else; Pop adds 1 to S
modulo 256 and then reads at 0x0100 | S, changing nothing else; Pop after Push returns the byte and restores S. (R220,
R221) -/
def Obligations.StackPrimitives : Prop :=
  ∀ (s : State) (v : Byte),
    (let t := push v s
    t = { s with sp := s.sp - 1, ram := t.ram } ∧ t.ramAt (0x0100 ||| s.sp.toNat) = v ∧
      (∀ b, b ≠ 0x0100 ||| s.sp.toNat → t.ramAt b = s.ramAt b) ∧ t.sp.toNat = (s.sp.toNat + 255) % 256) ∧
    pop s = (s.ramAt (0x0100 ||| ((s.sp.toNat + 1) % 256)), { s with sp := s.sp + 1 }) ∧
    (pop (push v s)).1 = v ∧ (pop (push v s)).2.sp = s.sp

/-- Every form of LDA, LDX and LDY completes in the cycles of its table: the register takes the operand byte, N and Z
follow it, and every other register, every other flag, the control state and memory are as before; devices are as the
reads of the operand leave them. (R140, R141, R142) -/
def Obligations.Loads : Prop :=
  ∀ (s : State) (n : Byte) (w : Addr),
    (∀ f ∈ ldaForms n w, ∃ t, exec f.1 s = .next t ∧ t.a = (load f.2.1 s).1 ∧ nzOf t.a t ∧
      readEffect [.a] [.n, .z] f.2.1 f.2.2 s t) ∧
    (∀ f ∈ ldxForms n w, ∃ t, exec f.1 s = .next t ∧ t.x = (load f.2.1 s).1 ∧ nzOf t.x t ∧
      readEffect [.x] [.n, .z] f.2.1 f.2.2 s t) ∧
    (∀ f ∈ ldyForms n w, ∃ t, exec f.1 s = .next t ∧ t.y = (load f.2.1 s).1 ∧ nzOf t.y t ∧
      readEffect [.y] [.n, .z] f.2.1 f.2.2 s t)

/-- Every form of STA, STX, STY and STZ completes in the cycles of its table: its byte (A, X, Y or 0x00) is stored at
the effective address by one bus write with no read of the target; every register, every flag, the control state and
every other byte of memory are as before. Where the bus has no RAM there, no memory changes. (R143, R144, R145, R146)
-/
def Obligations.Stores : Prop :=
  ∀ (s : State) (n : Byte) (w : Addr),
    (∀ f ∈ staForms n w, ∃ t, exec f.1 s = .next t ∧ storeEffect f.2.1 s.a f.2.2 s t) ∧
    (∀ f ∈ stxForms n w, ∃ t, exec f.1 s = .next t ∧ storeEffect f.2.1 s.x f.2.2 s t) ∧
    (∀ f ∈ styForms n w, ∃ t, exec f.1 s = .next t ∧ storeEffect f.2.1 s.y f.2.2 s t) ∧
    (∀ f ∈ stzForms n w, ∃ t, exec f.1 s = .next t ∧ storeEffect f.2.1 0x00 f.2.2 s t)

/-- TAX, TAY, TXA, TYA and TSX copy their source register, set N and Z from the byte and take 2 cycles; TXS copies X
to S and writes no flag; nothing else changes. (R147, R148, R149, R150, R151, R152) -/
def Obligations.Transfers : Prop :=
  ∀ s : State,
    (∃ p', exec .tax s = .next { s with x := s.a, p := p', clock := s.clock + 2 } ∧ nzFrom s.a s.p p') ∧
    (∃ p', exec .tay s = .next { s with y := s.a, p := p', clock := s.clock + 2 } ∧ nzFrom s.a s.p p') ∧
    (∃ p', exec .txa s = .next { s with a := s.x, p := p', clock := s.clock + 2 } ∧ nzFrom s.x s.p p') ∧
    (∃ p', exec .tya s = .next { s with a := s.y, p := p', clock := s.clock + 2 } ∧ nzFrom s.y s.p p') ∧
    (∃ p', exec .tsx s = .next { s with x := s.sp, p := p', clock := s.clock + 2 } ∧ nzFrom s.sp s.p p') ∧
    exec .txs s = .next { s with sp := s.x, clock := s.clock + 2 }

/-- Every form of ADC completes in the cycles of its table, decimal or not. V is set exactly when the signed sum of A,
the operand and the carry lies outside -128 to 127, in both modes. With D clear, A is the sum modulo 256 and C says it
reached 256; with D set, A and C are those of DecAdd (that V is binary and N, Z adjusted there is decision D13 of the
spec, log entry 10). N and Z follow the byte written to A; every other register, flag and byte is as before.
(42_arithmetic.md §1 (R160, R161)) -/
def Obligations.AddWithCarry : Prop :=
  ∀ (s : State) (n : Byte) (w : Addr), ∀ f ∈ adcForms n w, ∃ t, exec f.1 s = .next t ∧
    readEffect [.a] [.n, .v, .z, .c] f.2.1 f.2.2 s t ∧ nzOf t.a t ∧
    (let m := (load f.2.1 s).1
    let c := getFlag s.p .c
    (getFlag t.p .v = true ↔
      s.a.toInt + m.toInt + c.toNat < -128 ∨ 127 < s.a.toInt + m.toInt + c.toNat) ∧
    (getFlag s.p .d = false →
      t.a.toNat = (s.a.toNat + m.toNat + c.toNat) % 256 ∧
      (getFlag t.p .c = true ↔ 256 ≤ s.a.toNat + m.toNat + c.toNat)) ∧
    (getFlag s.p .d = true → (t.a, getFlag t.p .c) = decAdd s.a m c))

/-- Every form of SBC completes in the cycles of its table, decimal or not. V is set exactly when A minus the operand
minus the borrow lies outside -128 to 127 as signed numbers, in both modes (the overflow rule on the complemented
operand, decision D38 of the spec). With D clear, A is the difference modulo 256 and C says there was no borrow; with
D set, A and C are those of DecSub (decision D13, log entry 10). N and Z follow the byte written to A; every other
register, flag and byte is as before. (42_arithmetic.md §1 (R160, R162), 90_conflicts.md C2) -/
def Obligations.SubtractWithBorrow : Prop :=
  ∀ (s : State) (n : Byte) (w : Addr), ∀ f ∈ sbcForms n w, ∃ t, exec f.1 s = .next t ∧
    readEffect [.a] [.n, .v, .z, .c] f.2.1 f.2.2 s t ∧ nzOf t.a t ∧
    (let m := (load f.2.1 s).1
    let c := getFlag s.p .c
    let borrow := 1 - c.toNat
    (getFlag t.p .v = true ↔
      s.a.toInt - m.toInt - borrow < -128 ∨ 127 < s.a.toInt - m.toInt - borrow) ∧
    (getFlag s.p .d = false →
      t.a.toNat = (s.a.toNat + 256 - m.toNat - borrow) % 256 ∧
      (getFlag t.p .c = true ↔ m.toNat + borrow ≤ s.a.toNat)) ∧
    (getFlag s.p .d = true → (t.a, getFlag t.p .c) = decSub s.a m c))

/-- For all decimal digits and carries: DecAdd of the two BCD bytes is the BCD byte of the sum modulo 100 and carries
exactly when the sum reaches 100; DecSub is the BCD byte of the difference, or of the difference plus 100 with carry 0
when it is negative. (R163) -/
def Obligations.BcdCorrectness : Prop :=
  ∀ (h l h' l' : Nat) (c : Bool), h ≤ 9 → l ≤ 9 → h' ≤ 9 → l' ≤ 9 →
    let a : Byte := BitVec.ofNat 8 (16 * h + l)
    let m : Byte := BitVec.ofNat 8 (16 * h' + l')
    let sum := (10 * h + l) + (10 * h' + l') + c.toNat
    let diff : Int := (10 * h + l : Nat) - (10 * h' + l' : Nat) - (1 - c.toNat : Nat)
    decAdd a m c = (BitVec.ofNat 8 (16 * (sum % 100 / 10) + sum % 100 % 10), decide (100 ≤ sum)) ∧
    (0 ≤ diff → decSub a m c = (BitVec.ofNat 8 (16 * (diff.toNat / 10) + diff.toNat % 10), true)) ∧
    (diff < 0 →
      decSub a m c = (BitVec.ofNat 8 (16 * ((diff + 100).toNat / 10) + (diff + 100).toNat % 10), false))

/-- Every form of CMP, CPX and CPY completes in the cycles of its table: C is set exactly when the register is at
least the operand as unsigned numbers, Z exactly when they are equal, N is bit 7 of the difference modulo 256,
whatever D and the old C; no register and no other flag changes. (R164, R165, R166) -/
def Obligations.Compares : Prop :=
  ∀ (s : State) (n : Byte) (w : Addr),
    (∀ f ∈ cmpForms n w, ∃ t, exec f.1 s = .next t ∧ comparedTo s.a (load f.2.1 s).1 t ∧
      readEffect [] [.n, .z, .c] f.2.1 f.2.2 s t) ∧
    (∀ f ∈ cpxForms n w, ∃ t, exec f.1 s = .next t ∧ comparedTo s.x (load f.2.1 s).1 t ∧
      readEffect [] [.n, .z, .c] f.2.1 f.2.2 s t) ∧
    (∀ f ∈ cpyForms n w, ∃ t, exec f.1 s = .next t ∧ comparedTo s.y (load f.2.1 s).1 t ∧
      readEffect [] [.n, .z, .c] f.2.1 f.2.2 s t)

/-- Every form of INC and DEC completes in the cycles of its table: one read of the effective address, then one write
there of the byte plus or minus 1 modulo 256; N and Z follow the new byte even where the write is dropped; every
register, every other flag and every other byte of memory is as before. Each adds or takes 1 modulo 256 in its
register, sets N and Z from the new byte, and takes 2 cycles; nothing else changes, C and V included, and D is
ignored. (R167, R168, R169, R170, R171, R172, R173, R174) -/
def Obligations.IncrementDecrement : Prop :=
  (∀ (s : State) (n : Byte) (w : Addr),
      (∀ f ∈ incForms n w, ∃ t v, exec f.1 s = .next t ∧ v.toNat = ((operandByte f.2.1 s).toNat + 1) % 256 ∧ nzOf v t ∧
        modifyEffect [.n, .z] f.2.1 v f.2.2 s t) ∧
      (∀ f ∈ decForms n w, ∃ t v, exec f.1 s = .next t ∧ v.toNat = ((operandByte f.2.1 s).toNat + 255) % 256 ∧ nzOf v t ∧
        modifyEffect [.n, .z] f.2.1 v f.2.2 s t)) ∧
  (∀ s : State, ∃ inx iny dex dey ina dea : Byte,
      (inx.toNat = (s.x.toNat + 1) % 256 ∧ iny.toNat = (s.y.toNat + 1) % 256 ∧ ina.toNat = (s.a.toNat + 1) % 256 ∧
        dex.toNat = (s.x.toNat + 255) % 256 ∧ dey.toNat = (s.y.toNat + 255) % 256 ∧ dea.toNat = (s.a.toNat + 255) % 256) ∧
      (∃ p', exec .inx s = .next { s with x := inx, p := p', clock := s.clock + 2 } ∧ nzFrom inx s.p p') ∧
      (∃ p', exec .iny s = .next { s with y := iny, p := p', clock := s.clock + 2 } ∧ nzFrom iny s.p p') ∧
      (∃ p', exec .dex s = .next { s with x := dex, p := p', clock := s.clock + 2 } ∧ nzFrom dex s.p p') ∧
      (∃ p', exec .dey s = .next { s with y := dey, p := p', clock := s.clock + 2 } ∧ nzFrom dey s.p p') ∧
      (∃ p', exec .ina s = .next { s with a := ina, p := p', clock := s.clock + 2 } ∧ nzFrom ina s.p p') ∧
      (∃ p', exec .dea s = .next { s with a := dea, p := p', clock := s.clock + 2 } ∧ nzFrom dea s.p p'))

/-- Every form of AND, ORA and EOR completes in the cycles of its table: each bit of A becomes the and, or, exclusive
or of itself and the operand bit; N and Z follow; every other register, flag and byte is as before. (R180, R181, R182)
-/
def Obligations.LogicalOperations : Prop :=
  ∀ (s : State) (n : Byte) (w : Addr),
    (∀ f ∈ andForms n w, ∃ t, exec f.1 s = .next t ∧ readEffect [.a] [.n, .z] f.2.1 f.2.2 s t ∧ nzOf t.a t ∧
      ∀ k < 8, t.a.getLsbD k = (s.a.getLsbD k && (load f.2.1 s).1.getLsbD k)) ∧
    (∀ f ∈ oraForms n w, ∃ t, exec f.1 s = .next t ∧ readEffect [.a] [.n, .z] f.2.1 f.2.2 s t ∧ nzOf t.a t ∧
      ∀ k < 8, t.a.getLsbD k = (s.a.getLsbD k || (load f.2.1 s).1.getLsbD k)) ∧
    (∀ f ∈ eorForms n w, ∃ t, exec f.1 s = .next t ∧ readEffect [.a] [.n, .z] f.2.1 f.2.2 s t ∧ nzOf t.a t ∧
      ∀ k < 8, t.a.getLsbD k = (s.a.getLsbD k != (load f.2.1 s).1.getLsbD k))

/-- Every form of BIT completes in the cycles of its table and sets Z exactly when A and the operand share no set bit;
a memory form copies bits 7 and 6 of the byte to N and V, the immediate form leaves N and V; no register and no other
flag or byte changes. (R183) -/
def Obligations.BitTest : Prop :=
  ∀ (s : State) (n : Byte) (w : Addr), ∀ f ∈ bitForms n w, ∃ t, exec f.1 s = .next t ∧
    readEffect [] [.n, .v, .z] f.2.1 f.2.2 s t ∧
    (let m := (load f.2.1 s).1
    (getFlag t.p .z = true ↔ s.a &&& m = 0x00) ∧
    (f.2.1 = .imm n → getFlag t.p .n = getFlag s.p .n ∧ getFlag t.p .v = getFlag s.p .v) ∧
    (f.2.1 ≠ .imm n → getFlag t.p .n = m.getLsbD 7 ∧ getFlag t.p .v = m.getLsbD 6))

/-- Every form of TRB and TSB completes in the cycles of its table: Z is set exactly when A and the old byte share no
set bit; the byte is written back with the bits of A cleared (TRB) or set (TSB) by one read and one write; no
register, no other flag and no other byte of memory changes. (R184, R185) -/
def Obligations.TestAndModifyBits : Prop :=
  ∀ (s : State) (n : Byte) (w : Addr),
    (∀ f ∈ trbForms n w, ∃ t v, exec f.1 s = .next t ∧
      (∀ k < 8, v.getLsbD k = ((operandByte f.2.1 s).getLsbD k && !s.a.getLsbD k)) ∧
      (getFlag t.p .z = true ↔ s.a &&& operandByte f.2.1 s = 0x00) ∧ modifyEffect [.z] f.2.1 v f.2.2 s t) ∧
    (∀ f ∈ tsbForms n w, ∃ t v, exec f.1 s = .next t ∧
      (∀ k < 8, v.getLsbD k = ((operandByte f.2.1 s).getLsbD k || s.a.getLsbD k)) ∧
      (getFlag t.p .z = true ↔ s.a &&& operandByte f.2.1 s = 0x00) ∧ modifyEffect [.z] f.2.1 v f.2.2 s t)

/-- Each shifts A by one bit in 2 cycles: ASL doubles modulo 256, LSR halves, ROL doubles and takes the old carry into
bit 0, ROR halves and takes it into bit 7; C is the bit shifted out, N and Z follow the result, and nothing else
changes. Every memory form of ASL, LSR, ROL and ROR completes in the cycles of its table: the byte at the effective
address is shifted by one bit as the accumulator form shifts A, by one read and one write; C is the bit shifted out, N
and Z follow the result; no register, no other flag and no other byte of memory changes. (R186, R187, R188, R189) -/
def Obligations.Shifts : Prop :=
  (∀ s : State, ∃ asl lsr rol ror : Byte,
      (asl.toNat = 2 * s.a.toNat % 256 ∧ lsr.toNat = s.a.toNat / 2 ∧
        rol.toNat = (2 * s.a.toNat + (getFlag s.p .c).toNat) % 256 ∧
        ror.toNat = s.a.toNat / 2 + 128 * (getFlag s.p .c).toNat) ∧
      (∃ t, exec .aslAcc s = .next t ∧ t = { s with a := asl, p := t.p, clock := s.clock + 2 } ∧ nzOf asl t ∧
        flagsKeptExcept [.n, .z, .c] s t ∧ getFlag t.p .c = s.a.getLsbD 7) ∧
      (∃ t, exec .lsrAcc s = .next t ∧ t = { s with a := lsr, p := t.p, clock := s.clock + 2 } ∧ nzOf lsr t ∧
        flagsKeptExcept [.n, .z, .c] s t ∧ getFlag t.p .c = s.a.getLsbD 0) ∧
      (∃ t, exec .rolAcc s = .next t ∧ t = { s with a := rol, p := t.p, clock := s.clock + 2 } ∧ nzOf rol t ∧
        flagsKeptExcept [.n, .z, .c] s t ∧ getFlag t.p .c = s.a.getLsbD 7) ∧
      (∃ t, exec .rorAcc s = .next t ∧ t = { s with a := ror, p := t.p, clock := s.clock + 2 } ∧ nzOf ror t ∧
        flagsKeptExcept [.n, .z, .c] s t ∧ getFlag t.p .c = s.a.getLsbD 0)) ∧
  (∀ (s : State) (n : Byte) (w : Addr),
      (∀ f ∈ aslForms n w, ∃ t v, exec f.1 s = .next t ∧ v.toNat = 2 * (operandByte f.2.1 s).toNat % 256 ∧ nzOf v t ∧
        getFlag t.p .c = (operandByte f.2.1 s).getLsbD 7 ∧ modifyEffect [.n, .z, .c] f.2.1 v f.2.2 s t) ∧
      (∀ f ∈ lsrForms n w, ∃ t v, exec f.1 s = .next t ∧ v.toNat = (operandByte f.2.1 s).toNat / 2 ∧ nzOf v t ∧
        getFlag t.p .c = (operandByte f.2.1 s).getLsbD 0 ∧ modifyEffect [.n, .z, .c] f.2.1 v f.2.2 s t) ∧
      (∀ f ∈ rolForms n w, ∃ t v, exec f.1 s = .next t ∧
        v.toNat = (2 * (operandByte f.2.1 s).toNat + (getFlag s.p .c).toNat) % 256 ∧ nzOf v t ∧
        getFlag t.p .c = (operandByte f.2.1 s).getLsbD 7 ∧ modifyEffect [.n, .z, .c] f.2.1 v f.2.2 s t) ∧
      (∀ f ∈ rorForms n w, ∃ t v, exec f.1 s = .next t ∧
        v.toNat = (operandByte f.2.1 s).toNat / 2 + 128 * (getFlag s.p .c).toNat ∧ nzOf v t ∧
        getFlag t.p .c = (operandByte f.2.1 s).getLsbD 0 ∧ modifyEffect [.n, .z, .c] f.2.1 v f.2.2 s t))

/-- JMP abs sets PC to its operand in 3 cycles and changes nothing else. JMP (abs) and JMP (abs,X) read two bytes
through the bus, low byte first, the high byte at the next address modulo 65536 (no page-wrap defect, decision D9 of
the spec, log entry 24), from the operand or from the operand plus X modulo 65536, and set PC to them in 5 and 6
cycles; registers, P, the system registers and memory are as before, devices as the two reads leave them.
(44_control_flow.md §1 (R200, R201, R202), 40_addressing_modes.md §6 (R133, R134)) -/
def Obligations.Jumps : Prop :=
  ∀ (s : State) (w : Addr),
    exec (.jmpAbs w) s = .next { s with pc := w, clock := s.clock + 3 } ∧
    (let r (ptr : Nat) := memRead (BitVec.ofNat 16 ptr) s
    let u (ptr : Nat) := memRead (BitVec.ofNat 16 ((ptr + 1) % 65536)) (r ptr).2
    let target (ptr : Nat) : Addr := BitVec.ofNat 16 ((u ptr).1.toNat * 256 + (r ptr).1.toNat)
    (∃ t, exec (.jmpInd w) s = .next t ∧ t = { (u w.toNat).2 with pc := target w.toNat, clock := s.clock + 5 } ∧
      registersKeptExcept [] s t ∧ t.p = s.p ∧ systemKept s t ∧ memoryKept s t) ∧
    (∃ t, exec (.jmpIax w) s = .next t ∧
      t = { (u ((w.toNat + s.x.toNat) % 65536)).2 with
            pc := target ((w.toNat + s.x.toNat) % 65536), clock := s.clock + 6 } ∧
      registersKeptExcept [] s t ∧ t.p = s.p ∧ systemKept s t ∧ memoryKept s t))

/-- With PC past the instruction, JSR pushes PC - 1, high byte at 0x0100 | S and low byte below it modulo the page,
lowers S by 2, sets PC to the operand, and takes 6 cycles; no flag, no register, no other byte of memory and nothing
else changes. RTS pulls the low byte, then the high byte, from page 1, sets PC to that address plus 1 modulo 65536,
raises S by 2, takes 6 cycles, and changes nothing else. From every state, JSR and then RTS bring back everything, PC
included, but for the two stack bytes and the clock (12 cycles more). (R203, R204) -/
def Obligations.SubroutineLinkage : Prop :=
  (∀ (s : State) (w : Addr), ∃ t, exec (.jsr w) s = .next t ∧
      t = { s with sp := s.sp - 2, pc := w, clock := s.clock + 6, ram := t.ram } ∧
      t.ramAt (stackSlot s.sp) = BitVec.ofNat 8 ((s.pc.toNat + 65535) % 65536 / 256) ∧
      t.ramAt (stackSlot (s.sp - 1)) = BitVec.ofNat 8 ((s.pc.toNat + 65535) % 65536 % 256) ∧
      ∀ b, b ≠ stackSlot s.sp → b ≠ stackSlot (s.sp - 1) → t.ramAt b = s.ramAt b) ∧
  (∀ s : State, exec .rts s = .next
      { s with
        pc := BitVec.ofNat 16
          (((s.ramAt (stackSlot (s.sp + 2))).toNat * 256 + (s.ramAt (stackSlot (s.sp + 1))).toNat + 1) % 65536)
        sp := s.sp + 2
        clock := s.clock + 6 }) ∧
  (∀ (s : State) (w : Addr), ∃ t u, exec (.jsr w) s = .next t ∧ exec .rts t = .next u ∧
      u = { s with clock := s.clock + 12, ram := u.ram } ∧
      ∀ b, b ≠ stackSlot s.sp → b ≠ stackSlot (s.sp - 1) → u.ramAt b = s.ramAt b)

/-- With PC past the instruction, each of BCC, BCS, BEQ, BNE, BMI, BPL, BVC, BVS adds its signed displacement to PC
modulo 65536 and takes 3 cycles exactly when its flag has the value of the table, and otherwise leaves PC and takes 2;
BRA is always taken; nothing else changes. (R205, R206, R207, R208, R209, R210, R211, R212, R213, R214) -/
def Obligations.Branches : Prop :=
  ∀ (s : State) (n : Byte),
    (∀ f ∈ branchForms n, exec f.1 s = .next
      (if getFlag s.p f.2.1 = f.2.2 then
        { s with pc := BitVec.ofInt 16 (s.pc.toNat + n.toInt), clock := s.clock + 3 }
      else { s with clock := s.clock + 2 })) ∧
    exec (.bra n) s = .next { s with pc := BitVec.ofInt 16 (s.pc.toNat + n.toInt), clock := s.clock + 3 }

/-- PHA, PHX, PHY and PHP store their byte (A, X, Y, or P with bits 4 and 5 set) at the slot S designates, lower S by
1 modulo 256 and take 3 cycles. PLA, PLX and PLY raise S by 1 modulo 256, take the byte at the slot S then designates
into their register, set N and Z from it and take 4 cycles. Nothing else changes. (R222, R223, R224, R226, R227, R228,
R229) -/
def Obligations.PushesAndPulls : Prop :=
  (∀ s : State,
      (∃ t, exec .pha s = .next t ∧ bytePushed s.a 3 s t) ∧ (∃ t, exec .phx s = .next t ∧ bytePushed s.x 3 s t) ∧
      (∃ t, exec .phy s = .next t ∧ bytePushed s.y 3 s t) ∧
      (∃ t, exec .php s = .next t ∧ bytePushed (s.p ||| 0x30) 3 s t)) ∧
  (∀ s : State,
      let v := s.ramAt (stackSlot (s.sp + 1))
      ∃ p', nzFrom v s.p p' ∧
        exec .pla s = .next { s with a := v, sp := s.sp + 1, p := p', clock := s.clock + 4 } ∧
        exec .plx s = .next { s with x := v, sp := s.sp + 1, p := p', clock := s.clock + 4 } ∧
        exec .ply s = .next { s with y := v, sp := s.sp + 1, p := p', clock := s.clock + 4 })

/-- Each flag instruction sets its one flag to its value and takes 2 cycles; every other bit of P and everything else
is as before. NOP changes nothing but the clock. The PC advance of 1 is part of the fetch, before exec (log entry 16).
(R230, R231, R233, R234, R235, R236, R237) -/
def Obligations.FlagInstructions : Prop :=
  ∀ s : State,
    (∃ p', exec .clc s = .next { s with p := p', clock := s.clock + 2 } ∧ onlyFlagSet .c false s.p p') ∧
    (∃ p', exec .sec s = .next { s with p := p', clock := s.clock + 2 } ∧ onlyFlagSet .c true s.p p') ∧
    (∃ p', exec .sei s = .next { s with p := p', clock := s.clock + 2 } ∧ onlyFlagSet .i true s.p p') ∧
    (∃ p', exec .cld s = .next { s with p := p', clock := s.clock + 2 } ∧ onlyFlagSet .d false s.p p') ∧
    (∃ p', exec .sed s = .next { s with p := p', clock := s.clock + 2 } ∧ onlyFlagSet .d true s.p p') ∧
    (∃ p', exec .clv s = .next { s with p := p', clock := s.clock + 2 } ∧ onlyFlagSet .v false s.p p') ∧
    exec .nop s = .next { s with clock := s.clock + 2 }

/-- Each of the 78 unknown opcode bytes completes: 2 cycles, the opcode reported to the host, no register, flag,
memory cell or device changed (one byte long by decision D8 of the spec, log entry 1). (46_flags_system.md §3 (R245))
-/
def Obligations.UnknownOpcodes : Prop :=
  ∀ (s : State) (op : Byte), op ∈ unknownOpcodes →
    exec (.unknown op) s = .next
      { s with clock := s.clock + 2, out := { s.out with signals := .unknownOpcode op :: s.out.signals } }

/-- A write to 0xC000 to 0xC01F sets KBIN and nothing else, to 0xC05F starts the control query, to 0xC05E ends it; a
read of any keyboard address but 0xC010 (shared with the tape) gives the scan byte of 47 R252 and ends the query, and
nothing else changes (the combination of the bits and the life of the query are decisions D22 to D24 of the spec, log
entry 25). (47_dev_keyboard_tape_sound.md §1 (R251, R252)) -/
def Obligations.KeyboardPort : Prop :=
  ∀ (s : State) (addr : Addr) (v : Byte),
    (0xC000 ≤ addr.toNat → addr.toNat ≤ 0xC01F → memWrite addr v s = { s with kb := { s.kb with kbin := v } }) ∧
    memWrite 0xC05F v s = { s with kb := { s.kb with ctrlQuery := true } } ∧
    memWrite 0xC05E v s = { s with kb := { s.kb with ctrlQuery := false } } ∧
    ((0xC000 ≤ addr.toNat ∧ addr.toNat ≤ 0xC01F ∧ addr ≠ 0xC010 ∨ addr = 0xC05E ∨ addr = 0xC05F) →
      memRead addr s = (scanCode s.kb, { s with kb := { s.kb with ctrlQuery := false } }))

/-- With a key of row and column held and no modifier, writing 1 << row to KBIN and then reading the keyboard gives 1
<< column; writing any other value gives 0. (R256) -/
def Obligations.MatrixScan : Prop :=
  ∀ (s : State) (v : Byte), s.kb.clear = false → s.kb.shift = false → s.kb.ctrl = false →
    (memRead 0xC000 (memWrite 0xC000 v s)).1 =
      if v.toNat = 2 ^ s.kb.row.val then BitVec.ofNat 8 (2 ^ s.kb.col.val) else 0x00

/-- Pressing a key of the matrix, with any modifiers, makes its cell the active one with those modifiers and changes
nothing else; a lower-case letter is its upper-case key; Backspace is LEFT at row 3, column 0; each of the fifteen
symbol keys makes the cell of some letter or digit the active one with SHIFT, whichever the open parameter KEYMAP
gives it (log entry 11); a key with no mapping is ignored, among them every unmapped key and the character ~; a
release leaves no key and no modifier (the last two are decision D25 of the spec, log entry 25).
(47_dev_keyboard_tape_sound.md §1 (R253, R254, R255)) -/
def Obligations.KeyEvents : Prop :=
  ∀ (s : State) (ctrl shift : Bool),
    (∀ (r : Fin 8) (c : Fin 6) (k : Key), keyAt r c = some k →
      hostAct (.pushKey k ctrl shift) s =
        { s with kb := { s.kb with row := r, col := c, ctrl := ctrl, shift := shift, clear := false } }) ∧
    (∀ ch ∈ "ABCDEFGHIJKLMNOPQRSTUVWXYZ".toList,
      hostAct (.pushKey (.char ch.toLower) ctrl shift) s = hostAct (.pushKey (.char ch) ctrl shift) s) ∧
    hostAct (.pushKey .backspace ctrl shift) s =
      { s with kb := { s.kb with row := 3, col := 0, ctrl := ctrl, shift := shift, clear := false } } ∧
    (∀ ch ∈ "!\"#$%&/()=-+*^@".toList, ∃ (r : Fin 8) (c : Fin 6) (key : Char),
      key ∈ "ABCDEFGHIJKLMNOPQRSTUVWXYZ0123456789".toList ∧ keyAt r c = some (.char key) ∧
      hostAct (.pushKey (.char ch) ctrl shift) s =
        { s with kb := { s.kb with row := r, col := c, ctrl := ctrl, shift := true, clear := false } }) ∧
    (∀ k : Key, keyToMatrix k = none → hostAct (.pushKey k ctrl shift) s = s) ∧
    (∀ code : Nat, keyToMatrix (.other code) = none) ∧ keyToMatrix (.char '~') = none ∧
    hostAct .releaseKey s = { s with kb := { s.kb with clear := true, shift := false, ctrl := false } }

/-- A tape of k1 CA chunks, k2 CB chunks and N data bytes in all expands to 1000 k1 + 68 k2 + 16 N half-cycles. (R262)
-/
def Obligations.TapeWaveLength : Prop :=
  ∀ chunks : List Chunk,
    (expandWave chunks).length =
      1000 * chunks.countP (fun c => c == .ca) + 68 * chunks.countP (fun c => c == .cb) +
        16 * (chunks.map fun c => match c with | .da bytes => bytes.length | .ca => 0 | .cb => 0).sum

/-- Not playing: CASIN is returned and nothing changes. Playing with nothing armed: at the end of the wave the tape
ends, else the half-cycle at the playhead is armed and CASIN goes high. Playing with a half-cycle armed: while no more
than its duration has passed nothing changes; after it CASIN toggles, the playhead moves on, the time is taken, the
next half-cycle is armed or the tape ends, and with tape sound the speaker is toggled by a nested read (points (b) to
(e) are decisions D26, D27 of the spec, log entry 25). (47_dev_keyboard_tape_sound.md §2 (R265)) -/
def Obligations.TapePlayback : Prop :=
  ∀ s : State,
    let r := deviceRead .tape 0xC010 s
    let t := s.tape
    r.1 = (match r.2.tape.casin with | .high => 0x80 | .low => 0x00) ∧
    (t.play = false → r.2 = s) ∧
    (t.play = true → t.active = false → t.wave.length ≤ t.head → r.2 = tapeEnded s) ∧
    (t.play = true → t.active = false → ∀ d, t.wave[t.head]? = some d →
      r.2 = { s with tape := { t with start := s.clock, casin := .high, armed := d, active := true } }) ∧
    (t.play = true → t.active = true → s.clock ≤ t.start + t.armed → r.2 = s) ∧
    (t.play = true → t.active = true → t.start + t.armed < s.clock →
      let edge : Tape :=
        { t with
          casin := (match t.casin with | .low => .high | .high => .low), head := t.head + 1, start := s.clock }
      let u := match t.wave[t.head + 1]? with
        | none => tapeEnded { s with tape := edge }
        | some d => { s with tape := { edge with armed := d } }
      r.2 = if t.sound = true then (memRead 0xC030 u).2 else u)

/-- A read of 0xC010 gives the OR of the keyboard byte and the tape byte, the keyboard first, and both devices act. A
read of 0xC020 toggles the speaker and returns 0, playing or not (decision D26 of the spec, log entry 25). A read of
any other tape address returns the next byte of Config.ioReadValue, moves the counter draws on (the choice of the
model, decision D20, log entry 8) and changes nothing else, and no write to a tape address but 0xC010 changes anything
(decision D26). (47_dev_keyboard_tape_sound.md §1 (R257), 20_memory.md §1 (R51), 47_dev_keyboard_tape_sound.md §2
(R268, R269)) -/
def Obligations.SharedAddress : Prop :=
  ∀ (s : State) (addr : Addr) (v : Byte),
    (let s1 : State := { s with kb := { s.kb with ctrlQuery := false } }
    memRead 0xC010 s = (scanCode s.kb ||| (deviceRead .tape 0xC010 s1).1, (deviceRead .tape 0xC010 s1).2)) ∧
    memRead 0xC020 s = (0x00, (memRead 0xC030 s).2) ∧
    ((0xC021 ≤ addr.toNat ∧ addr.toNat ≤ 0xC02F ∨ addr = 0xC052 ∨ addr = 0xC053 ∨ addr = 0xC056 ∨ addr = 0xC057 ∨
        addr = 0xC070 ∨ addr = 0xC071) →
      memRead addr s = (Config.ioReadValue s.draws, { s with draws := s.draws + 1 }) ∧ memWrite addr v s = s) ∧
    memWrite 0xC020 v s = s

/-- A read or write of any of the sixteen addresses emits the segment since the last toggle at the level the line had,
flips the line and takes the time; the samples written are the cycles times 16 over 1000, rounded down, none beyond
16,000 or with the sound off or unavailable (decision D29 of the spec, log entry 25); nothing else changes. That a
read returns the next byte of Config.ioReadValue and moves the counter draws on is the choice of the model (decision
D20, log entry 8). (47_dev_keyboard_tape_sound.md §3 (R275, R276, R277, R278, R279)) -/
def Obligations.SpeakerAccess : Prop :=
  ∀ (s : State) (addr : Addr) (v : Byte), 0xC030 ≤ addr.toNat → addr.toNat ≤ 0xC03F →
    memRead addr s = (Config.ioReadValue s.draws, { speakerToggled s with draws := s.draws + 1 }) ∧
    memWrite addr v s = speakerToggled s

/-- Any access of 0xC050 selects COLOR, of 0xC051 MONO, of 0xC054 page 1, of 0xC055 page 2, whatever the value
written, and changes nothing else; a read returns 0xFF. (R290) -/
def Obligations.VideoSoftswitches : Prop :=
  ∀ (s : State) (v : Byte),
    (let t : State := { s with vid := { s.vid with colorMode := .color } }
    memRead 0xC050 s = (0xFF, t) ∧ memWrite 0xC050 v s = t) ∧
    (let t : State := { s with vid := { s.vid with colorMode := .mono } }
    memRead 0xC051 s = (0xFF, t) ∧ memWrite 0xC051 v s = t) ∧
    (let t : State := { s with vid := { s.vid with hiresPage := .page1 } }
    memRead 0xC054 s = (0xFF, t) ∧ memWrite 0xC054 v s = t) ∧
    (let t : State := { s with vid := { s.vid with hiresPage := .page2 } }
    memRead 0xC055 s = (0xFF, t) ∧ memWrite 0xC055 v s = t)

/-- For every scanline and byte column the address is the page base plus the table's offset of the band plus 0x400
times the scanline within the band plus the column, the table being 0x80 * (band mod 8) + 0x28 * (band div 8); it lies
inside the 8 KiB page, and the bus has RAM there in either bank. (R293, R294) -/
def Obligations.ScreenAddresses : Prop :=
  ∀ (page : HiresPage) (y k : Nat) (bank : BankMode), y < 192 → k < 40 →
    byteAddr page y k =
      (match page with | .page1 => 0x2000 | .page2 => 0xA000) +
        (0x80 * (y / 8 % 8) + 0x28 * (y / 8 / 8)) + 0x400 * (y % 8) + k ∧
    (match page with | .page1 => 0x2000 | .page2 => 0xA000) ≤ byteAddr page y k ∧
    byteAddr page y k < (match page with | .page1 => 0x4000 | .page2 => 0xC000) ∧
    isRam bank (BitVec.ofNat 16 (byteAddr page y k))

/-- In MONO mode a scanline is 560 pixels, and the two pixels of bit i of byte k are 0xFFFFFF where the bit is set and
0x000000 where it is clear; bit 7 and the neighbouring bytes do not matter (the spec's reading, decision D30; bit 0
leftmost is general knowledge, log entry 14). (48_dev_video.md §4 (R298, R299, R301)) -/
def Obligations.MonoRaster : Prop :=
  ∀ line : List Byte, (rasterLine .mono line).toList.length = 560 ∧
    ∀ k i j : Nat, k < 40 → i < 7 → j < 2 →
      (rasterLine .mono line)[14 * k + 2 * i + j]? =
        some (if (line.getD k 0x00).getLsbD i = true then 0xFFFFFF else 0x000000)

/-- In COLOR mode a scanline is 560 pixels, every one an entry of the palette; the 14 pixels of byte k depend on that
byte and on the two column bits either side alone; a byte 0x00 is all 0x000000 and a byte 0x7F all 0xFFFFFF in every
context; and the leftmost pixel of a line that starts 0x55, 0x2A is 0xDD22DD (decision D30 of the spec, log entry 12).
(48_dev_video.md §4 (R298, R300, R301)) -/
def Obligations.ColorRaster : Prop :=
  ∀ line : List Byte,
    (rasterLine .color line).toList.length = 560 ∧ (∀ pixel ∈ rasterLine .color line, pixel ∈ colorPalette) ∧
    (∀ k j : Nat, k < 40 → j < 14 → ∃ pixel, (rasterLine .color line)[14 * k + j]? = some pixel ∧
      (line.getD k 0x00 = 0x00 → pixel = 0x000000) ∧ (line.getD k 0x00 = 0x7F → pixel = 0xFFFFFF) ∧
      ∀ other : List Byte, other.getD k 0x00 = line.getD k 0x00 →
        (k = 0 ∨ ∀ i, i = 5 ∨ i = 6 → (other.getD (k - 1) 0x00).getLsbD i = (line.getD (k - 1) 0x00).getLsbD i) →
        (k = 39 ∨ ∀ i, i < 2 → (other.getD (k + 1) 0x00).getLsbD i = (line.getD (k + 1) 0x00).getLsbD i) →
        (rasterLine .color other)[14 * k + j]? = some pixel) ∧
    (line.getD 0 0x00 = 0x55 → line.getD 1 0x00 = 0x2A → (rasterLine .color line)[0]? = some 0xDD22DD)

/-- A refresh at one instant puts in every pixel of framebuffer rows 2y and 2y + 1 the raster of the 40 RAM bytes of
scanline y in the current colour mode, for each of the 192 scanlines and so for all 384 rows of 560 pixels, signals
"damaged", ends any scan in progress, and changes nothing else (that the two rows are equal is decision D32 of the
spec, log entry 20). (48_dev_video.md §3 (R296), 48_dev_video.md §4 (R302)) -/
def Obligations.RefreshFrame : Prop :=
  ∀ s : State,
    let t := refresh s
    t = { s with
      vid := { s.vid with fb := t.vid.fb, scanRow := 0, scanLine := [] }
      out := { s.out with signals := .damaged :: s.out.signals } } ∧
    ∀ (r : Fin 384) (c : Fin 560),
      let line := (List.range 40).map fun k => s.ramAt (byteAddr s.vid.hiresPage (r.val / 2) k)
      t.vid.fb.pixel r c = (rasterLine s.vid.colorMode line)[c]

/-- From the beginning of a scan, the 7,680 atomic byte reads of the video task with nothing in between bring the
machine to exactly the state of a refresh at that instant: the fine-grained agent refines the whole-frame one. That
the task goes byte by byte, with scanRow and scanLine as its progress, is the choice of the model (decision D31, log
entry 20). (48_dev_video.md §3 (R296), 20_memory.md §6 (R89)) -/
def Obligations.RefreshByReads : Prop :=
  ∀ s : State, s.vid.scanRow = 0 → s.vid.scanLine = [] → videoReads 7680 s = refresh s

/-- The host's reset selects BANK_ROM, page 1 and MONO, sets the RESET latch, and changes nothing else. With a whole
image of 16,384 bytes, power-on leaves ROM holding the image, RAM 0x00 but 0xFF in the hi-res pages, BANK_ROM, the
RESET latch alone set, clock and pendingIRQ 0, the devices at the power-on column of 10 R38 (decisions D4, D34 of the
spec, log entry 5); the check of the first step then leaves A, X, Y 0x00, S 0xFF, P 0x20 and PC the address in the
image's bytes 0x3FFC and 0x3FFD, whatever the registers were. Without a whole image it leaves everything but the error
it reports; that this holds of a machine that is On too is the choice of the model (log entries 18, 19).
(70_reset_and_hazards.md §1 (R340, R342), 10_state.md §5 (R38), 60_exceptions.md §1 (R313)) -/
def Obligations.HostResets : Prop :=
  (∀ s : State, hostAct .machineReset s =
      { s with
        bankMode := .rom
        vid := { s.vid with hiresPage := .page1, colorMode := .mono }
        latches := { s.latches with reset := true } }) ∧
  (∀ (s : State) (image : List Byte),
      (image.length = 0x4000 →
        let t := hostAct (.powerOn image) s
        (∀ k < 0x4000, some (t.romAt k) = image[k]?) ∧
        (∀ b < 0x10000, t.ramAt b = if (0x2000 ≤ b ∧ b < 0x4000) ∨ (0xA000 ≤ b ∧ b < 0xC000) then 0xFF else 0x00) ∧
        t.power = .on ∧ t.bankMode = .rom ∧ t.latches = ⟨true, false, false⟩ ∧ t.clock = 0 ∧ t.pendingIrq = 0 ∧
        t.vid.colorMode = .mono ∧ t.vid.hiresPage = .page1 ∧ t.kb.kbin = 0x00 ∧ t.kb.ctrlQuery = false ∧
        t.kb.clear = true ∧ t.kb.ctrl = false ∧ t.kb.shift = false ∧ t.tape.wave = [] ∧ t.tape.head = 0 ∧
        t.tape.play = false ∧ t.tape.active = false ∧ t.tape.casin = .low ∧ t.snd.line = .low ∧ t.snd.last = 0 ∧
        interruptCheck t =
          { t with
            a := 0x00, x := 0x00, y := 0x00, p := 0x20, sp := 0xFF, latches := ⟨false, false, false⟩
            pc := BitVec.ofNat 16 ((image.getD 0x3FFD 0x00).toNat * 256 + (image.getD 0x3FFC 0x00).toNat) }) ∧
      (image.length ≠ 0x4000 →
        hostAct (.powerOn image) s = { s with out := { s.out with signals := .assetMissing :: s.out.signals } }))

/-- State.reset meets the invariant of the machine. (10_state.md §1 (R23), 10_state.md §4 (R34, R35)) -/
def Obligations.ResetMeetsInvariant : Prop :=
  StateInv State.reset

/-- From every state that meets the invariant (both memories in canonical form, bit 5 of P reads 1, the armed
half-cycle is the one at the playhead of a playing tape and began in the past, the speaker last toggled in the past,
the scan is inside the screen), whatever is latched and whatever instruction is fetched, a step leads to a state that
meets it. (10_state.md §1 (R23, R25), 10_state.md §3 (R30, R31), 10_state.md §4 (R34, R35)) -/
def Obligations.StepKeepsInvariant : Prop :=
  ∀ s t : State, StateInv s → step s = .next t → StateInv t

/-- Every action of the host and every byte read of the video task keeps the invariant; so it holds in every state
that any interleaving of steps, video reads and host actions reaches from reset. (60_exceptions.md §4 (R330),
48_dev_video.md §3 (R296)) -/
def Obligations.EnvironmentKeepsInvariant : Prop :=
  (∀ (s : State) (act : HostAction), StateInv s → StateInv (hostAct act s)) ∧ (∀ s : State, StateInv s → StateInv (videoRead s)) ∧
  ∀ s : State, Reachable s → StateInv s

/-- If an instruction changes a flag, its mnemonic is in the list 10 R24 gives for that flag; BIT #imm changes neither
N nor V; and bit 5 of P stays 1 once it is 1. If an instruction changes A, X, Y or S, its mnemonic is in the list 10
R20 and R21 give for that register, and a memory form of ASL, LSR, ROL or ROR never changes A. (10_state.md §1 (R20,
R21, R24)) -/
def Obligations.Writers : Prop :=
  ∀ (i : Instr) (s t : State), WellFormed i → exec i s = .next t →
    (∀ f : Flag, getFlag t.p f ≠ getFlag s.p f → mnemonicOf i ∈ flagWriters f) ∧
    (∀ n : Byte, i = .bitImm n → getFlag t.p .n = getFlag s.p .n ∧ getFlag t.p .v = getFlag s.p .v) ∧
    (unusedBit s.p = true → unusedBit t.p = true) ∧
    (∀ r : Reg, t.reg r ≠ s.reg r → mnemonicOf i ∈ registerWriters r) ∧
    (mnemonicOf i ∈ ["ASL", "LSR", "ROL", "ROR"] → i.mode ≠ .acc → t.a = s.a)

/-- Two states that differ only in what the video hardware holds (softswitch settings, framebuffer, scan) step alike:
the steps end in states that again differ at most there, or both stop alike. (R297) -/
def Obligations.VideoIsInvisible : Prop :=
  ∀ s t s' : State, sameButVideo s t → step s = .next s' → ∃ t', step t = .next t' ∧ sameButVideo s' t'

/-- When the audio device goes, isAvailable is false and lastError reports the unavailable device; when it comes,
isAvailable is true and lastError keeps its value or is cleared, which the spec leaves open (log entry 32);
setSoundEnabled sets the enable; each changes nothing else. With the device unavailable or the sound disabled, any
access of the speaker writes no sample and leaves the device status alone (log entry 32), but still emits its segment,
flips the line and takes the time (decision D29 of the spec, log entry 25). (47_dev_keyboard_tape_sound.md §3 (R279),
60_exceptions.md §4 (R334, R335)) -/
def Obligations.AudioStatus : Prop :=
  (∀ (s : State) (b : Bool),
      hostAct (.setAudioAvailable false) s =
        { s with snd := { s.snd with available := false, lastError := some .unavailable } } ∧
      (∃ e, (e = s.snd.lastError ∨ e = none) ∧
        hostAct (.setAudioAvailable true) s = { s with snd := { s.snd with available := true, lastError := e } }) ∧
      hostAct (.setSoundEnabled b) s = { s with snd := { s.snd with enabled := b } }) ∧
  (∀ (s : State) (addr : Addr) (v : Byte), 0xC030 ≤ addr.toNat → addr.toNat ≤ 0xC03F →
      s.snd.available = false ∨ s.snd.enabled = false → ∀ t : State, t = (memRead addr s).2 ∨ t = memWrite addr v s →
        t.out.samples = s.out.samples ∧ t.out.segments = ⟨s.snd.line, s.clock - s.snd.last⟩ :: s.out.segments ∧
        t.snd.line ≠ s.snd.line ∧ t.snd.last = s.clock ∧ t.snd.enabled = s.snd.enabled ∧
        t.snd.available = s.snd.available ∧ t.snd.lastError = s.snd.lastError)

end Statements
end

