-- ==== Sys2Proof/Laws/Memory.lean ====
section
/-! SUPPORT. The laws of memories: a read after a write, the frame of a write, and that every memory operation keeps the
canonical form. -/

namespace Sys2Proof.Machine

theorem Memory.read_erase_other (dflt : Nat → Byte) (m : Memory) {a b : Nat} (h : b ≠ a) :
    (m.erase a).read dflt b = m.read dflt b := by
  induction m with
  | nil => rfl
  | cons c rest ih =>
    obtain ⟨k, v⟩ := c
    by_cases hk : k = a
    · subst hk
      have : Memory.erase ((k, v) :: rest) k = Memory.erase rest k := by simp [Memory.erase]
      rw [this, ih]
      simp [Memory.read, h.symm]
    · have : Memory.erase ((k, v) :: rest) a = (k, v) :: Memory.erase rest a := by simp [Memory.erase, hk]
      rw [this]
      simp [Memory.read, ih]

theorem Memory.read_erase_same (dflt : Nat → Byte) (m : Memory) (a : Nat) :
    (m.erase a).read dflt a = dflt a := by
  induction m with
  | nil => rfl
  | cons c rest ih =>
    obtain ⟨k, v⟩ := c
    by_cases hk : k = a
    · subst hk
      have : Memory.erase ((k, v) :: rest) k = Memory.erase rest k := by simp [Memory.erase]
      rw [this, ih]
    · have : Memory.erase ((k, v) :: rest) a = (k, v) :: Memory.erase rest a := by simp [Memory.erase, hk]
      rw [this]
      simp [Memory.read, ih, hk]

theorem Memory.read_insert_other (dflt : Nat → Byte) (m : Memory) {a b : Nat} (v : Byte) (h : b ≠ a) :
    (m.insert a v).read dflt b = m.read dflt b := by
  induction m with
  | nil => simp [Memory.insert, Memory.read, h.symm]
  | cons c rest ih =>
    obtain ⟨k, w⟩ := c
    simp only [Memory.insert]
    split
    · simp [Memory.read, h.symm]
    · simp [Memory.read, ih]

theorem Memory.read_insert_same (dflt : Nat → Byte) (m : Memory) (a : Nat) (v : Byte) (h : ∀ c ∈ m, c.1 ≠ a) :
    (m.insert a v).read dflt a = v := by
  induction m with
  | nil => simp [Memory.insert, Memory.read]
  | cons c rest ih =>
    obtain ⟨k, w⟩ := c
    have hk : k ≠ a := h (k, w) (by simp)
    simp only [Memory.insert]
    split
    · simp [Memory.read]
    · simp [Memory.read, hk, ih fun c hc => h c (by simp [hc])]

/-- A read after a write to the same address gives the value written. -/
@[simp] theorem Memory.read_write_same (dflt : Nat → Byte) (m : Memory) (a : Nat) (v : Byte) :
    (m.write dflt a v).read dflt a = v := by
  simp only [Memory.write]
  split
  · rename_i h
    rw [Memory.read_erase_same, h]
  · exact Memory.read_insert_same _ _ _ _ fun c hc => by simpa [Memory.erase] using (List.mem_filter.1 hc).2

/-- A write leaves every other address alone. -/
theorem Memory.read_write_other (dflt : Nat → Byte) (m : Memory) {a b : Nat} (v : Byte) (h : b ≠ a) :
    (m.write dflt a v).read dflt b = m.read dflt b := by
  simp only [Memory.write]
  split
  · exact Memory.read_erase_other _ _ h
  · rw [Memory.read_insert_other _ _ _ h, Memory.read_erase_other _ _ h]

theorem Memory.mem_insert {m : Memory} {a : Nat} {v : Byte} {c : Host.Cell} :
    c ∈ m.insert a v ↔ c = (a, v) ∨ c ∈ m := by
  induction m with
  | nil => simp [Memory.insert]
  | cons d rest ih =>
    obtain ⟨k, w⟩ := d
    simp only [Memory.insert]
    split
    · simp
    · simp only [List.mem_cons, ih]
      tauto

theorem Memory.rising_insert {m : Memory} (h : m.Pairwise fun c d => c.1 < d.1) {a : Nat} (v : Byte)
    (ha : ∀ c ∈ m, c.1 ≠ a) : (m.insert a v).Pairwise fun c d => c.1 < d.1 := by
  induction m with
  | nil => simp [Memory.insert]
  | cons d rest ih =>
    obtain ⟨k, w⟩ := d
    have hk : k ≠ a := ha (k, w) (by simp)
    rw [List.pairwise_cons] at h
    simp only [Memory.insert]
    split
    · rename_i hlt
      refine List.pairwise_cons.2 ⟨fun c hc => ?_, List.pairwise_cons.2 h⟩
      rcases List.mem_cons.1 hc with rfl | hc
      · exact hlt
      · exact Nat.lt_trans hlt (h.1 c hc)
    · refine List.pairwise_cons.2 ⟨fun c hc => ?_, ih h.2 fun c hc => ha c (by simp [hc])⟩
      rcases Memory.mem_insert.1 hc with rfl | hc
      · show k < a
        omega
      · exact h.1 c hc

theorem Memory.wf_erase {dflt : Nat → Byte} {size : Nat} {m : Memory} (h : m.wf dflt size) (a : Nat) :
    (m.erase a).wf dflt size :=
  ⟨h.1.sublist List.filter_sublist, fun c hc => h.2 c (List.mem_filter.1 hc).1⟩

/-- A write inside the memory keeps its canonical form. -/
theorem Memory.wf_write {dflt : Nat → Byte} {size : Nat} {m : Memory} (h : m.wf dflt size) {a : Nat} (ha : a < size)
    (v : Byte) : (m.write dflt a v).wf dflt size := by
  simp only [Memory.write]
  split
  · exact Memory.wf_erase h a
  · rename_i hv
    have he := Memory.wf_erase h a
    refine ⟨Memory.rising_insert he.1 v fun c hc => by simpa [Memory.erase] using (List.mem_filter.1 hc).2, ?_⟩
    intro c hc
    rcases Memory.mem_insert.1 hc with rfl | hc
    · exact ⟨ha, hv⟩
    · exact he.2 c hc

/-- A memory with nothing listed is in canonical form. -/
theorem Memory.wf_nil (dflt : Nat → Byte) (size : Nat) : Memory.wf dflt size [] := by
  simp [Memory.wf]

/-- The memory right after reset is in canonical form. -/
theorem reset_ram_wf : Memory.wf ramDefault ramSize State.reset.ram := Memory.wf_nil _ _

theorem isHiresPage_iff (a : Nat) :
    isHiresPage a = true ↔ (0x2000 ≤ a ∧ a < 0x4000) ∨ (0xA000 ≤ a ∧ a < 0xC000) := by
  simp [isHiresPage]

theorem mem_clearedRam {c : Host.Cell} : c ∈ clearedRam ↔ isHiresPage c.1 = true ∧ c.2 = 0x00 := by
  obtain ⟨k, v⟩ := c
  simp only [clearedRam, List.mem_map, List.mem_append, List.mem_range'_1, isHiresPage_iff, Prod.mk.injEq]
  constructor
  · rintro ⟨x, hx, rfl, rfl⟩
    exact ⟨by omega, rfl⟩
  · rintro ⟨hk, rfl⟩
    exact ⟨k, by omega, rfl, rfl⟩

theorem clearedRam_wf : Memory.wf ramDefault ramSize clearedRam := by
  constructor
  · rw [clearedRam, List.pairwise_map, List.pairwise_append]
    refine ⟨List.pairwise_lt_range' .., List.pairwise_lt_range' .., ?_⟩
    intro x hx y hy
    rw [List.mem_range'_1] at hx hy
    show x < y
    omega
  · intro c hc
    obtain ⟨hp, hv⟩ := mem_clearedRam.1 hc
    refine ⟨?_, by simp [hv, ramDefault, hp]⟩
    rw [isHiresPage_iff] at hp
    simp only [ramSize]
    omega

theorem Memory.read_eq_of_not_listed (dflt : Nat → Byte) {m : Memory} {a : Nat} (h : ∀ c ∈ m, c.1 ≠ a) :
    m.read dflt a = dflt a := by
  induction m with
  | nil => rfl
  | cons c rest ih =>
    obtain ⟨k, v⟩ := c
    have : k ≠ a := h (k, v) (by simp)
    simp [Memory.read, this, ih fun c hc => h c (by simp [hc])]

theorem Memory.read_eq_of_all (dflt : Nat → Byte) {m : Memory} {a : Nat} {v : Byte} (h : ∀ c ∈ m, c.1 = a → c.2 = v)
    (he : ∃ c ∈ m, c.1 = a) : m.read dflt a = v := by
  induction m with
  | nil => simp at he
  | cons c rest ih =>
    obtain ⟨k, w⟩ := c
    by_cases hk : k = a
    · simpa [Memory.read, hk] using h (k, w) (by simp) hk
    · simp only [Memory.read, hk, if_false]
      refine ih (fun c hc => h c (by simp [hc])) ?_
      obtain ⟨c, hc, hca⟩ := he
      rcases List.mem_cons.1 hc with rfl | hc
      · exact absurd hca hk
      · exact ⟨c, hc, hca⟩

/-- `RAM.clear()`: every cell reads 0x00. -/
theorem read_clearedRam (a : Nat) : clearedRam.read ramDefault a = 0x00 := by
  by_cases h : isHiresPage a = true
  · exact Memory.read_eq_of_all _ (fun c hc _ => (mem_clearedRam.1 hc).2) ⟨(a, 0x00), mem_clearedRam.2 ⟨h, rfl⟩, rfl⟩
  · rw [Memory.read_eq_of_not_listed]
    · simp [ramDefault, h]
    · rintro c hc rfl
      exact h (mem_clearedRam.1 hc).1

theorem romOfImage_bounds {i0 : Nat} {image : List Byte} {c : Host.Cell} (h : c ∈ romOfImage i0 image) :
    i0 ≤ c.1 ∧ c.1 < i0 + image.length ∧ c.2 ≠ 0x00 := by
  induction image generalizing i0 with
  | nil => simp [romOfImage] at h
  | cons b bs ih =>
    simp only [romOfImage] at h
    split at h
    · have := ih h
      simp only [List.length_cons]
      exact ⟨by omega, by omega, this.2.2⟩
    · rename_i hb
      rcases List.mem_cons.1 h with rfl | h
      · exact ⟨Nat.le_refl _, by simp, hb⟩
      · have := ih h
        simp only [List.length_cons]
        exact ⟨by omega, by omega, this.2.2⟩

theorem romOfImage_wf (i0 size : Nat) (image : List Byte) (h : i0 + image.length ≤ size) :
    (romOfImage i0 image).wf romDefault size := by
  constructor
  · clear h
    induction image generalizing i0 with
    | nil => simp [romOfImage]
    | cons b bs ih =>
      simp only [romOfImage]
      split
      · exact ih _
      · refine List.pairwise_cons.2 ⟨fun c hc => ?_, ih _⟩
        have := romOfImage_bounds hc
        show i0 < c.1
        omega
  · intro c hc
    have := romOfImage_bounds hc
    exact ⟨by omega, this.2.2⟩

/-- A loaded image reads back byte by byte. -/
theorem read_romOfImage (i0 : Nat) (image : List Byte) (k : Nat) :
    (romOfImage i0 image).read romDefault (i0 + k) = image.getD k 0x00 := by
  induction image generalizing i0 k with
  | nil => rfl
  | cons b bs ih =>
    have hnext : ∀ j, (romOfImage (i0 + 1) bs).read romDefault (i0 + (j + 1)) = bs.getD j 0x00 := fun j => by
      rw [← ih (i0 + 1) j]
      congr 1
      omega
    simp only [romOfImage]
    cases k with
    | zero =>
      split
      · rename_i hb
        rw [Memory.read_eq_of_not_listed]
        · simp [hb, romDefault]
        · intro c hc
          have := romOfImage_bounds hc
          omega
      · simp [Memory.read]
    | succ j =>
      split
      · simpa using hnext j
      · simpa [Memory.read] using hnext j

end Sys2Proof.Machine
end

