-- ==== Sys2Proof/Laws/State.lean ====
section
/-! SUPPORT. One lemma per field per update of the state, so that no later proof unfolds a record update. -/

namespace Sys2Proof.Machine.State

variable (s : State)

@[simp] theorem setA_a (v : Byte) : (s.setA v).a = v := rfl
@[simp] theorem setA_x (v : Byte) : (s.setA v).x = s.x := rfl
@[simp] theorem setA_y (v : Byte) : (s.setA v).y = s.y := rfl
@[simp] theorem setA_sp (v : Byte) : (s.setA v).sp = s.sp := rfl
@[simp] theorem setA_p (v : Byte) : (s.setA v).p = s.p := rfl
@[simp] theorem setA_pc (v : Byte) : (s.setA v).pc = s.pc := rfl
@[simp] theorem setA_latches (v : Byte) : (s.setA v).latches = s.latches := rfl
@[simp] theorem setA_pendingIrq (v : Byte) : (s.setA v).pendingIrq = s.pendingIrq := rfl
@[simp] theorem setA_clock (v : Byte) : (s.setA v).clock = s.clock := rfl
@[simp] theorem setA_ram (v : Byte) : (s.setA v).ram = s.ram := rfl
@[simp] theorem setA_rom (v : Byte) : (s.setA v).rom = s.rom := rfl
@[simp] theorem setA_bankMode (v : Byte) : (s.setA v).bankMode = s.bankMode := rfl
@[simp] theorem setA_kb (v : Byte) : (s.setA v).kb = s.kb := rfl
@[simp] theorem setA_tape (v : Byte) : (s.setA v).tape = s.tape := rfl
@[simp] theorem setA_snd (v : Byte) : (s.setA v).snd = s.snd := rfl
@[simp] theorem setA_vid (v : Byte) : (s.setA v).vid = s.vid := rfl
@[simp] theorem setA_power (v : Byte) : (s.setA v).power = s.power := rfl
@[simp] theorem setA_out (v : Byte) : (s.setA v).out = s.out := rfl
@[simp] theorem setA_draws (v : Byte) : (s.setA v).draws = s.draws := rfl

@[simp] theorem setX_a (v : Byte) : (s.setX v).a = s.a := rfl
@[simp] theorem setX_x (v : Byte) : (s.setX v).x = v := rfl
@[simp] theorem setX_y (v : Byte) : (s.setX v).y = s.y := rfl
@[simp] theorem setX_sp (v : Byte) : (s.setX v).sp = s.sp := rfl
@[simp] theorem setX_p (v : Byte) : (s.setX v).p = s.p := rfl
@[simp] theorem setX_pc (v : Byte) : (s.setX v).pc = s.pc := rfl
@[simp] theorem setX_latches (v : Byte) : (s.setX v).latches = s.latches := rfl
@[simp] theorem setX_pendingIrq (v : Byte) : (s.setX v).pendingIrq = s.pendingIrq := rfl
@[simp] theorem setX_clock (v : Byte) : (s.setX v).clock = s.clock := rfl
@[simp] theorem setX_ram (v : Byte) : (s.setX v).ram = s.ram := rfl
@[simp] theorem setX_rom (v : Byte) : (s.setX v).rom = s.rom := rfl
@[simp] theorem setX_bankMode (v : Byte) : (s.setX v).bankMode = s.bankMode := rfl
@[simp] theorem setX_kb (v : Byte) : (s.setX v).kb = s.kb := rfl
@[simp] theorem setX_tape (v : Byte) : (s.setX v).tape = s.tape := rfl
@[simp] theorem setX_snd (v : Byte) : (s.setX v).snd = s.snd := rfl
@[simp] theorem setX_vid (v : Byte) : (s.setX v).vid = s.vid := rfl
@[simp] theorem setX_power (v : Byte) : (s.setX v).power = s.power := rfl
@[simp] theorem setX_out (v : Byte) : (s.setX v).out = s.out := rfl
@[simp] theorem setX_draws (v : Byte) : (s.setX v).draws = s.draws := rfl

@[simp] theorem setY_a (v : Byte) : (s.setY v).a = s.a := rfl
@[simp] theorem setY_x (v : Byte) : (s.setY v).x = s.x := rfl
@[simp] theorem setY_y (v : Byte) : (s.setY v).y = v := rfl
@[simp] theorem setY_sp (v : Byte) : (s.setY v).sp = s.sp := rfl
@[simp] theorem setY_p (v : Byte) : (s.setY v).p = s.p := rfl
@[simp] theorem setY_pc (v : Byte) : (s.setY v).pc = s.pc := rfl
@[simp] theorem setY_latches (v : Byte) : (s.setY v).latches = s.latches := rfl
@[simp] theorem setY_pendingIrq (v : Byte) : (s.setY v).pendingIrq = s.pendingIrq := rfl
@[simp] theorem setY_clock (v : Byte) : (s.setY v).clock = s.clock := rfl
@[simp] theorem setY_ram (v : Byte) : (s.setY v).ram = s.ram := rfl
@[simp] theorem setY_rom (v : Byte) : (s.setY v).rom = s.rom := rfl
@[simp] theorem setY_bankMode (v : Byte) : (s.setY v).bankMode = s.bankMode := rfl
@[simp] theorem setY_kb (v : Byte) : (s.setY v).kb = s.kb := rfl
@[simp] theorem setY_tape (v : Byte) : (s.setY v).tape = s.tape := rfl
@[simp] theorem setY_snd (v : Byte) : (s.setY v).snd = s.snd := rfl
@[simp] theorem setY_vid (v : Byte) : (s.setY v).vid = s.vid := rfl
@[simp] theorem setY_power (v : Byte) : (s.setY v).power = s.power := rfl
@[simp] theorem setY_out (v : Byte) : (s.setY v).out = s.out := rfl
@[simp] theorem setY_draws (v : Byte) : (s.setY v).draws = s.draws := rfl

@[simp] theorem setSp_a (v : Byte) : (s.setSp v).a = s.a := rfl
@[simp] theorem setSp_x (v : Byte) : (s.setSp v).x = s.x := rfl
@[simp] theorem setSp_y (v : Byte) : (s.setSp v).y = s.y := rfl
@[simp] theorem setSp_sp (v : Byte) : (s.setSp v).sp = v := rfl
@[simp] theorem setSp_p (v : Byte) : (s.setSp v).p = s.p := rfl
@[simp] theorem setSp_pc (v : Byte) : (s.setSp v).pc = s.pc := rfl
@[simp] theorem setSp_latches (v : Byte) : (s.setSp v).latches = s.latches := rfl
@[simp] theorem setSp_pendingIrq (v : Byte) : (s.setSp v).pendingIrq = s.pendingIrq := rfl
@[simp] theorem setSp_clock (v : Byte) : (s.setSp v).clock = s.clock := rfl
@[simp] theorem setSp_ram (v : Byte) : (s.setSp v).ram = s.ram := rfl
@[simp] theorem setSp_rom (v : Byte) : (s.setSp v).rom = s.rom := rfl
@[simp] theorem setSp_bankMode (v : Byte) : (s.setSp v).bankMode = s.bankMode := rfl
@[simp] theorem setSp_kb (v : Byte) : (s.setSp v).kb = s.kb := rfl
@[simp] theorem setSp_tape (v : Byte) : (s.setSp v).tape = s.tape := rfl
@[simp] theorem setSp_snd (v : Byte) : (s.setSp v).snd = s.snd := rfl
@[simp] theorem setSp_vid (v : Byte) : (s.setSp v).vid = s.vid := rfl
@[simp] theorem setSp_power (v : Byte) : (s.setSp v).power = s.power := rfl
@[simp] theorem setSp_out (v : Byte) : (s.setSp v).out = s.out := rfl
@[simp] theorem setSp_draws (v : Byte) : (s.setSp v).draws = s.draws := rfl

@[simp] theorem setP_a (v : Byte) : (s.setP v).a = s.a := rfl
@[simp] theorem setP_x (v : Byte) : (s.setP v).x = s.x := rfl
@[simp] theorem setP_y (v : Byte) : (s.setP v).y = s.y := rfl
@[simp] theorem setP_sp (v : Byte) : (s.setP v).sp = s.sp := rfl
@[simp] theorem setP_p (v : Byte) : (s.setP v).p = v := rfl
@[simp] theorem setP_pc (v : Byte) : (s.setP v).pc = s.pc := rfl
@[simp] theorem setP_latches (v : Byte) : (s.setP v).latches = s.latches := rfl
@[simp] theorem setP_pendingIrq (v : Byte) : (s.setP v).pendingIrq = s.pendingIrq := rfl
@[simp] theorem setP_clock (v : Byte) : (s.setP v).clock = s.clock := rfl
@[simp] theorem setP_ram (v : Byte) : (s.setP v).ram = s.ram := rfl
@[simp] theorem setP_rom (v : Byte) : (s.setP v).rom = s.rom := rfl
@[simp] theorem setP_bankMode (v : Byte) : (s.setP v).bankMode = s.bankMode := rfl
@[simp] theorem setP_kb (v : Byte) : (s.setP v).kb = s.kb := rfl
@[simp] theorem setP_tape (v : Byte) : (s.setP v).tape = s.tape := rfl
@[simp] theorem setP_snd (v : Byte) : (s.setP v).snd = s.snd := rfl
@[simp] theorem setP_vid (v : Byte) : (s.setP v).vid = s.vid := rfl
@[simp] theorem setP_power (v : Byte) : (s.setP v).power = s.power := rfl
@[simp] theorem setP_out (v : Byte) : (s.setP v).out = s.out := rfl
@[simp] theorem setP_draws (v : Byte) : (s.setP v).draws = s.draws := rfl

@[simp] theorem setPc_a (v : Addr) : (s.setPc v).a = s.a := rfl
@[simp] theorem setPc_x (v : Addr) : (s.setPc v).x = s.x := rfl
@[simp] theorem setPc_y (v : Addr) : (s.setPc v).y = s.y := rfl
@[simp] theorem setPc_sp (v : Addr) : (s.setPc v).sp = s.sp := rfl
@[simp] theorem setPc_p (v : Addr) : (s.setPc v).p = s.p := rfl
@[simp] theorem setPc_pc (v : Addr) : (s.setPc v).pc = v := rfl
@[simp] theorem setPc_latches (v : Addr) : (s.setPc v).latches = s.latches := rfl
@[simp] theorem setPc_pendingIrq (v : Addr) : (s.setPc v).pendingIrq = s.pendingIrq := rfl
@[simp] theorem setPc_clock (v : Addr) : (s.setPc v).clock = s.clock := rfl
@[simp] theorem setPc_ram (v : Addr) : (s.setPc v).ram = s.ram := rfl
@[simp] theorem setPc_rom (v : Addr) : (s.setPc v).rom = s.rom := rfl
@[simp] theorem setPc_bankMode (v : Addr) : (s.setPc v).bankMode = s.bankMode := rfl
@[simp] theorem setPc_kb (v : Addr) : (s.setPc v).kb = s.kb := rfl
@[simp] theorem setPc_tape (v : Addr) : (s.setPc v).tape = s.tape := rfl
@[simp] theorem setPc_snd (v : Addr) : (s.setPc v).snd = s.snd := rfl
@[simp] theorem setPc_vid (v : Addr) : (s.setPc v).vid = s.vid := rfl
@[simp] theorem setPc_power (v : Addr) : (s.setPc v).power = s.power := rfl
@[simp] theorem setPc_out (v : Addr) : (s.setPc v).out = s.out := rfl
@[simp] theorem setPc_draws (v : Addr) : (s.setPc v).draws = s.draws := rfl

@[simp] theorem setLatches_a (v : Latches) : (s.setLatches v).a = s.a := rfl
@[simp] theorem setLatches_x (v : Latches) : (s.setLatches v).x = s.x := rfl
@[simp] theorem setLatches_y (v : Latches) : (s.setLatches v).y = s.y := rfl
@[simp] theorem setLatches_sp (v : Latches) : (s.setLatches v).sp = s.sp := rfl
@[simp] theorem setLatches_p (v : Latches) : (s.setLatches v).p = s.p := rfl
@[simp] theorem setLatches_pc (v : Latches) : (s.setLatches v).pc = s.pc := rfl
@[simp] theorem setLatches_latches (v : Latches) : (s.setLatches v).latches = v := rfl
@[simp] theorem setLatches_pendingIrq (v : Latches) : (s.setLatches v).pendingIrq = s.pendingIrq := rfl
@[simp] theorem setLatches_clock (v : Latches) : (s.setLatches v).clock = s.clock := rfl
@[simp] theorem setLatches_ram (v : Latches) : (s.setLatches v).ram = s.ram := rfl
@[simp] theorem setLatches_rom (v : Latches) : (s.setLatches v).rom = s.rom := rfl
@[simp] theorem setLatches_bankMode (v : Latches) : (s.setLatches v).bankMode = s.bankMode := rfl
@[simp] theorem setLatches_kb (v : Latches) : (s.setLatches v).kb = s.kb := rfl
@[simp] theorem setLatches_tape (v : Latches) : (s.setLatches v).tape = s.tape := rfl
@[simp] theorem setLatches_snd (v : Latches) : (s.setLatches v).snd = s.snd := rfl
@[simp] theorem setLatches_vid (v : Latches) : (s.setLatches v).vid = s.vid := rfl
@[simp] theorem setLatches_power (v : Latches) : (s.setLatches v).power = s.power := rfl
@[simp] theorem setLatches_out (v : Latches) : (s.setLatches v).out = s.out := rfl
@[simp] theorem setLatches_draws (v : Latches) : (s.setLatches v).draws = s.draws := rfl

@[simp] theorem setPendingIrq_a (v : Nat) : (s.setPendingIrq v).a = s.a := rfl
@[simp] theorem setPendingIrq_x (v : Nat) : (s.setPendingIrq v).x = s.x := rfl
@[simp] theorem setPendingIrq_y (v : Nat) : (s.setPendingIrq v).y = s.y := rfl
@[simp] theorem setPendingIrq_sp (v : Nat) : (s.setPendingIrq v).sp = s.sp := rfl
@[simp] theorem setPendingIrq_p (v : Nat) : (s.setPendingIrq v).p = s.p := rfl
@[simp] theorem setPendingIrq_pc (v : Nat) : (s.setPendingIrq v).pc = s.pc := rfl
@[simp] theorem setPendingIrq_latches (v : Nat) : (s.setPendingIrq v).latches = s.latches := rfl
@[simp] theorem setPendingIrq_pendingIrq (v : Nat) : (s.setPendingIrq v).pendingIrq = v := rfl
@[simp] theorem setPendingIrq_clock (v : Nat) : (s.setPendingIrq v).clock = s.clock := rfl
@[simp] theorem setPendingIrq_ram (v : Nat) : (s.setPendingIrq v).ram = s.ram := rfl
@[simp] theorem setPendingIrq_rom (v : Nat) : (s.setPendingIrq v).rom = s.rom := rfl
@[simp] theorem setPendingIrq_bankMode (v : Nat) : (s.setPendingIrq v).bankMode = s.bankMode := rfl
@[simp] theorem setPendingIrq_kb (v : Nat) : (s.setPendingIrq v).kb = s.kb := rfl
@[simp] theorem setPendingIrq_tape (v : Nat) : (s.setPendingIrq v).tape = s.tape := rfl
@[simp] theorem setPendingIrq_snd (v : Nat) : (s.setPendingIrq v).snd = s.snd := rfl
@[simp] theorem setPendingIrq_vid (v : Nat) : (s.setPendingIrq v).vid = s.vid := rfl
@[simp] theorem setPendingIrq_power (v : Nat) : (s.setPendingIrq v).power = s.power := rfl
@[simp] theorem setPendingIrq_out (v : Nat) : (s.setPendingIrq v).out = s.out := rfl
@[simp] theorem setPendingIrq_draws (v : Nat) : (s.setPendingIrq v).draws = s.draws := rfl

@[simp] theorem setClock_a (v : Nat) : (s.setClock v).a = s.a := rfl
@[simp] theorem setClock_x (v : Nat) : (s.setClock v).x = s.x := rfl
@[simp] theorem setClock_y (v : Nat) : (s.setClock v).y = s.y := rfl
@[simp] theorem setClock_sp (v : Nat) : (s.setClock v).sp = s.sp := rfl
@[simp] theorem setClock_p (v : Nat) : (s.setClock v).p = s.p := rfl
@[simp] theorem setClock_pc (v : Nat) : (s.setClock v).pc = s.pc := rfl
@[simp] theorem setClock_latches (v : Nat) : (s.setClock v).latches = s.latches := rfl
@[simp] theorem setClock_pendingIrq (v : Nat) : (s.setClock v).pendingIrq = s.pendingIrq := rfl
@[simp] theorem setClock_clock (v : Nat) : (s.setClock v).clock = v := rfl
@[simp] theorem setClock_ram (v : Nat) : (s.setClock v).ram = s.ram := rfl
@[simp] theorem setClock_rom (v : Nat) : (s.setClock v).rom = s.rom := rfl
@[simp] theorem setClock_bankMode (v : Nat) : (s.setClock v).bankMode = s.bankMode := rfl
@[simp] theorem setClock_kb (v : Nat) : (s.setClock v).kb = s.kb := rfl
@[simp] theorem setClock_tape (v : Nat) : (s.setClock v).tape = s.tape := rfl
@[simp] theorem setClock_snd (v : Nat) : (s.setClock v).snd = s.snd := rfl
@[simp] theorem setClock_vid (v : Nat) : (s.setClock v).vid = s.vid := rfl
@[simp] theorem setClock_power (v : Nat) : (s.setClock v).power = s.power := rfl
@[simp] theorem setClock_out (v : Nat) : (s.setClock v).out = s.out := rfl
@[simp] theorem setClock_draws (v : Nat) : (s.setClock v).draws = s.draws := rfl

@[simp] theorem setRam_a (v : Memory) : (s.setRam v).a = s.a := rfl
@[simp] theorem setRam_x (v : Memory) : (s.setRam v).x = s.x := rfl
@[simp] theorem setRam_y (v : Memory) : (s.setRam v).y = s.y := rfl
@[simp] theorem setRam_sp (v : Memory) : (s.setRam v).sp = s.sp := rfl
@[simp] theorem setRam_p (v : Memory) : (s.setRam v).p = s.p := rfl
@[simp] theorem setRam_pc (v : Memory) : (s.setRam v).pc = s.pc := rfl
@[simp] theorem setRam_latches (v : Memory) : (s.setRam v).latches = s.latches := rfl
@[simp] theorem setRam_pendingIrq (v : Memory) : (s.setRam v).pendingIrq = s.pendingIrq := rfl
@[simp] theorem setRam_clock (v : Memory) : (s.setRam v).clock = s.clock := rfl
@[simp] theorem setRam_ram (v : Memory) : (s.setRam v).ram = v := rfl
@[simp] theorem setRam_rom (v : Memory) : (s.setRam v).rom = s.rom := rfl
@[simp] theorem setRam_bankMode (v : Memory) : (s.setRam v).bankMode = s.bankMode := rfl
@[simp] theorem setRam_kb (v : Memory) : (s.setRam v).kb = s.kb := rfl
@[simp] theorem setRam_tape (v : Memory) : (s.setRam v).tape = s.tape := rfl
@[simp] theorem setRam_snd (v : Memory) : (s.setRam v).snd = s.snd := rfl
@[simp] theorem setRam_vid (v : Memory) : (s.setRam v).vid = s.vid := rfl
@[simp] theorem setRam_power (v : Memory) : (s.setRam v).power = s.power := rfl
@[simp] theorem setRam_out (v : Memory) : (s.setRam v).out = s.out := rfl
@[simp] theorem setRam_draws (v : Memory) : (s.setRam v).draws = s.draws := rfl

@[simp] theorem setRom_a (v : Memory) : (s.setRom v).a = s.a := rfl
@[simp] theorem setRom_x (v : Memory) : (s.setRom v).x = s.x := rfl
@[simp] theorem setRom_y (v : Memory) : (s.setRom v).y = s.y := rfl
@[simp] theorem setRom_sp (v : Memory) : (s.setRom v).sp = s.sp := rfl
@[simp] theorem setRom_p (v : Memory) : (s.setRom v).p = s.p := rfl
@[simp] theorem setRom_pc (v : Memory) : (s.setRom v).pc = s.pc := rfl
@[simp] theorem setRom_latches (v : Memory) : (s.setRom v).latches = s.latches := rfl
@[simp] theorem setRom_pendingIrq (v : Memory) : (s.setRom v).pendingIrq = s.pendingIrq := rfl
@[simp] theorem setRom_clock (v : Memory) : (s.setRom v).clock = s.clock := rfl
@[simp] theorem setRom_ram (v : Memory) : (s.setRom v).ram = s.ram := rfl
@[simp] theorem setRom_rom (v : Memory) : (s.setRom v).rom = v := rfl
@[simp] theorem setRom_bankMode (v : Memory) : (s.setRom v).bankMode = s.bankMode := rfl
@[simp] theorem setRom_kb (v : Memory) : (s.setRom v).kb = s.kb := rfl
@[simp] theorem setRom_tape (v : Memory) : (s.setRom v).tape = s.tape := rfl
@[simp] theorem setRom_snd (v : Memory) : (s.setRom v).snd = s.snd := rfl
@[simp] theorem setRom_vid (v : Memory) : (s.setRom v).vid = s.vid := rfl
@[simp] theorem setRom_power (v : Memory) : (s.setRom v).power = s.power := rfl
@[simp] theorem setRom_out (v : Memory) : (s.setRom v).out = s.out := rfl
@[simp] theorem setRom_draws (v : Memory) : (s.setRom v).draws = s.draws := rfl

@[simp] theorem setBankMode_a (v : BankMode) : (s.setBankMode v).a = s.a := rfl
@[simp] theorem setBankMode_x (v : BankMode) : (s.setBankMode v).x = s.x := rfl
@[simp] theorem setBankMode_y (v : BankMode) : (s.setBankMode v).y = s.y := rfl
@[simp] theorem setBankMode_sp (v : BankMode) : (s.setBankMode v).sp = s.sp := rfl
@[simp] theorem setBankMode_p (v : BankMode) : (s.setBankMode v).p = s.p := rfl
@[simp] theorem setBankMode_pc (v : BankMode) : (s.setBankMode v).pc = s.pc := rfl
@[simp] theorem setBankMode_latches (v : BankMode) : (s.setBankMode v).latches = s.latches := rfl
@[simp] theorem setBankMode_pendingIrq (v : BankMode) : (s.setBankMode v).pendingIrq = s.pendingIrq := rfl
@[simp] theorem setBankMode_clock (v : BankMode) : (s.setBankMode v).clock = s.clock := rfl
@[simp] theorem setBankMode_ram (v : BankMode) : (s.setBankMode v).ram = s.ram := rfl
@[simp] theorem setBankMode_rom (v : BankMode) : (s.setBankMode v).rom = s.rom := rfl
@[simp] theorem setBankMode_bankMode (v : BankMode) : (s.setBankMode v).bankMode = v := rfl
@[simp] theorem setBankMode_kb (v : BankMode) : (s.setBankMode v).kb = s.kb := rfl
@[simp] theorem setBankMode_tape (v : BankMode) : (s.setBankMode v).tape = s.tape := rfl
@[simp] theorem setBankMode_snd (v : BankMode) : (s.setBankMode v).snd = s.snd := rfl
@[simp] theorem setBankMode_vid (v : BankMode) : (s.setBankMode v).vid = s.vid := rfl
@[simp] theorem setBankMode_power (v : BankMode) : (s.setBankMode v).power = s.power := rfl
@[simp] theorem setBankMode_out (v : BankMode) : (s.setBankMode v).out = s.out := rfl
@[simp] theorem setBankMode_draws (v : BankMode) : (s.setBankMode v).draws = s.draws := rfl

@[simp] theorem setKb_a (v : Keyboard) : (s.setKb v).a = s.a := rfl
@[simp] theorem setKb_x (v : Keyboard) : (s.setKb v).x = s.x := rfl
@[simp] theorem setKb_y (v : Keyboard) : (s.setKb v).y = s.y := rfl
@[simp] theorem setKb_sp (v : Keyboard) : (s.setKb v).sp = s.sp := rfl
@[simp] theorem setKb_p (v : Keyboard) : (s.setKb v).p = s.p := rfl
@[simp] theorem setKb_pc (v : Keyboard) : (s.setKb v).pc = s.pc := rfl
@[simp] theorem setKb_latches (v : Keyboard) : (s.setKb v).latches = s.latches := rfl
@[simp] theorem setKb_pendingIrq (v : Keyboard) : (s.setKb v).pendingIrq = s.pendingIrq := rfl
@[simp] theorem setKb_clock (v : Keyboard) : (s.setKb v).clock = s.clock := rfl
@[simp] theorem setKb_ram (v : Keyboard) : (s.setKb v).ram = s.ram := rfl
@[simp] theorem setKb_rom (v : Keyboard) : (s.setKb v).rom = s.rom := rfl
@[simp] theorem setKb_bankMode (v : Keyboard) : (s.setKb v).bankMode = s.bankMode := rfl
@[simp] theorem setKb_kb (v : Keyboard) : (s.setKb v).kb = v := rfl
@[simp] theorem setKb_tape (v : Keyboard) : (s.setKb v).tape = s.tape := rfl
@[simp] theorem setKb_snd (v : Keyboard) : (s.setKb v).snd = s.snd := rfl
@[simp] theorem setKb_vid (v : Keyboard) : (s.setKb v).vid = s.vid := rfl
@[simp] theorem setKb_power (v : Keyboard) : (s.setKb v).power = s.power := rfl
@[simp] theorem setKb_out (v : Keyboard) : (s.setKb v).out = s.out := rfl
@[simp] theorem setKb_draws (v : Keyboard) : (s.setKb v).draws = s.draws := rfl

@[simp] theorem setTape_a (v : Tape) : (s.setTape v).a = s.a := rfl
@[simp] theorem setTape_x (v : Tape) : (s.setTape v).x = s.x := rfl
@[simp] theorem setTape_y (v : Tape) : (s.setTape v).y = s.y := rfl
@[simp] theorem setTape_sp (v : Tape) : (s.setTape v).sp = s.sp := rfl
@[simp] theorem setTape_p (v : Tape) : (s.setTape v).p = s.p := rfl
@[simp] theorem setTape_pc (v : Tape) : (s.setTape v).pc = s.pc := rfl
@[simp] theorem setTape_latches (v : Tape) : (s.setTape v).latches = s.latches := rfl
@[simp] theorem setTape_pendingIrq (v : Tape) : (s.setTape v).pendingIrq = s.pendingIrq := rfl
@[simp] theorem setTape_clock (v : Tape) : (s.setTape v).clock = s.clock := rfl
@[simp] theorem setTape_ram (v : Tape) : (s.setTape v).ram = s.ram := rfl
@[simp] theorem setTape_rom (v : Tape) : (s.setTape v).rom = s.rom := rfl
@[simp] theorem setTape_bankMode (v : Tape) : (s.setTape v).bankMode = s.bankMode := rfl
@[simp] theorem setTape_kb (v : Tape) : (s.setTape v).kb = s.kb := rfl
@[simp] theorem setTape_tape (v : Tape) : (s.setTape v).tape = v := rfl
@[simp] theorem setTape_snd (v : Tape) : (s.setTape v).snd = s.snd := rfl
@[simp] theorem setTape_vid (v : Tape) : (s.setTape v).vid = s.vid := rfl
@[simp] theorem setTape_power (v : Tape) : (s.setTape v).power = s.power := rfl
@[simp] theorem setTape_out (v : Tape) : (s.setTape v).out = s.out := rfl
@[simp] theorem setTape_draws (v : Tape) : (s.setTape v).draws = s.draws := rfl

@[simp] theorem setSnd_a (v : Speaker) : (s.setSnd v).a = s.a := rfl
@[simp] theorem setSnd_x (v : Speaker) : (s.setSnd v).x = s.x := rfl
@[simp] theorem setSnd_y (v : Speaker) : (s.setSnd v).y = s.y := rfl
@[simp] theorem setSnd_sp (v : Speaker) : (s.setSnd v).sp = s.sp := rfl
@[simp] theorem setSnd_p (v : Speaker) : (s.setSnd v).p = s.p := rfl
@[simp] theorem setSnd_pc (v : Speaker) : (s.setSnd v).pc = s.pc := rfl
@[simp] theorem setSnd_latches (v : Speaker) : (s.setSnd v).latches = s.latches := rfl
@[simp] theorem setSnd_pendingIrq (v : Speaker) : (s.setSnd v).pendingIrq = s.pendingIrq := rfl
@[simp] theorem setSnd_clock (v : Speaker) : (s.setSnd v).clock = s.clock := rfl
@[simp] theorem setSnd_ram (v : Speaker) : (s.setSnd v).ram = s.ram := rfl
@[simp] theorem setSnd_rom (v : Speaker) : (s.setSnd v).rom = s.rom := rfl
@[simp] theorem setSnd_bankMode (v : Speaker) : (s.setSnd v).bankMode = s.bankMode := rfl
@[simp] theorem setSnd_kb (v : Speaker) : (s.setSnd v).kb = s.kb := rfl
@[simp] theorem setSnd_tape (v : Speaker) : (s.setSnd v).tape = s.tape := rfl
@[simp] theorem setSnd_snd (v : Speaker) : (s.setSnd v).snd = v := rfl
@[simp] theorem setSnd_vid (v : Speaker) : (s.setSnd v).vid = s.vid := rfl
@[simp] theorem setSnd_power (v : Speaker) : (s.setSnd v).power = s.power := rfl
@[simp] theorem setSnd_out (v : Speaker) : (s.setSnd v).out = s.out := rfl
@[simp] theorem setSnd_draws (v : Speaker) : (s.setSnd v).draws = s.draws := rfl

@[simp] theorem setVid_a (v : Video) : (s.setVid v).a = s.a := rfl
@[simp] theorem setVid_x (v : Video) : (s.setVid v).x = s.x := rfl
@[simp] theorem setVid_y (v : Video) : (s.setVid v).y = s.y := rfl
@[simp] theorem setVid_sp (v : Video) : (s.setVid v).sp = s.sp := rfl
@[simp] theorem setVid_p (v : Video) : (s.setVid v).p = s.p := rfl
@[simp] theorem setVid_pc (v : Video) : (s.setVid v).pc = s.pc := rfl
@[simp] theorem setVid_latches (v : Video) : (s.setVid v).latches = s.latches := rfl
@[simp] theorem setVid_pendingIrq (v : Video) : (s.setVid v).pendingIrq = s.pendingIrq := rfl
@[simp] theorem setVid_clock (v : Video) : (s.setVid v).clock = s.clock := rfl
@[simp] theorem setVid_ram (v : Video) : (s.setVid v).ram = s.ram := rfl
@[simp] theorem setVid_rom (v : Video) : (s.setVid v).rom = s.rom := rfl
@[simp] theorem setVid_bankMode (v : Video) : (s.setVid v).bankMode = s.bankMode := rfl
@[simp] theorem setVid_kb (v : Video) : (s.setVid v).kb = s.kb := rfl
@[simp] theorem setVid_tape (v : Video) : (s.setVid v).tape = s.tape := rfl
@[simp] theorem setVid_snd (v : Video) : (s.setVid v).snd = s.snd := rfl
@[simp] theorem setVid_vid (v : Video) : (s.setVid v).vid = v := rfl
@[simp] theorem setVid_power (v : Video) : (s.setVid v).power = s.power := rfl
@[simp] theorem setVid_out (v : Video) : (s.setVid v).out = s.out := rfl
@[simp] theorem setVid_draws (v : Video) : (s.setVid v).draws = s.draws := rfl

@[simp] theorem setPower_a (v : Power) : (s.setPower v).a = s.a := rfl
@[simp] theorem setPower_x (v : Power) : (s.setPower v).x = s.x := rfl
@[simp] theorem setPower_y (v : Power) : (s.setPower v).y = s.y := rfl
@[simp] theorem setPower_sp (v : Power) : (s.setPower v).sp = s.sp := rfl
@[simp] theorem setPower_p (v : Power) : (s.setPower v).p = s.p := rfl
@[simp] theorem setPower_pc (v : Power) : (s.setPower v).pc = s.pc := rfl
@[simp] theorem setPower_latches (v : Power) : (s.setPower v).latches = s.latches := rfl
@[simp] theorem setPower_pendingIrq (v : Power) : (s.setPower v).pendingIrq = s.pendingIrq := rfl
@[simp] theorem setPower_clock (v : Power) : (s.setPower v).clock = s.clock := rfl
@[simp] theorem setPower_ram (v : Power) : (s.setPower v).ram = s.ram := rfl
@[simp] theorem setPower_rom (v : Power) : (s.setPower v).rom = s.rom := rfl
@[simp] theorem setPower_bankMode (v : Power) : (s.setPower v).bankMode = s.bankMode := rfl
@[simp] theorem setPower_kb (v : Power) : (s.setPower v).kb = s.kb := rfl
@[simp] theorem setPower_tape (v : Power) : (s.setPower v).tape = s.tape := rfl
@[simp] theorem setPower_snd (v : Power) : (s.setPower v).snd = s.snd := rfl
@[simp] theorem setPower_vid (v : Power) : (s.setPower v).vid = s.vid := rfl
@[simp] theorem setPower_power (v : Power) : (s.setPower v).power = v := rfl
@[simp] theorem setPower_out (v : Power) : (s.setPower v).out = s.out := rfl
@[simp] theorem setPower_draws (v : Power) : (s.setPower v).draws = s.draws := rfl

@[simp] theorem setOut_a (v : Outputs) : (s.setOut v).a = s.a := rfl
@[simp] theorem setOut_x (v : Outputs) : (s.setOut v).x = s.x := rfl
@[simp] theorem setOut_y (v : Outputs) : (s.setOut v).y = s.y := rfl
@[simp] theorem setOut_sp (v : Outputs) : (s.setOut v).sp = s.sp := rfl
@[simp] theorem setOut_p (v : Outputs) : (s.setOut v).p = s.p := rfl
@[simp] theorem setOut_pc (v : Outputs) : (s.setOut v).pc = s.pc := rfl
@[simp] theorem setOut_latches (v : Outputs) : (s.setOut v).latches = s.latches := rfl
@[simp] theorem setOut_pendingIrq (v : Outputs) : (s.setOut v).pendingIrq = s.pendingIrq := rfl
@[simp] theorem setOut_clock (v : Outputs) : (s.setOut v).clock = s.clock := rfl
@[simp] theorem setOut_ram (v : Outputs) : (s.setOut v).ram = s.ram := rfl
@[simp] theorem setOut_rom (v : Outputs) : (s.setOut v).rom = s.rom := rfl
@[simp] theorem setOut_bankMode (v : Outputs) : (s.setOut v).bankMode = s.bankMode := rfl
@[simp] theorem setOut_kb (v : Outputs) : (s.setOut v).kb = s.kb := rfl
@[simp] theorem setOut_tape (v : Outputs) : (s.setOut v).tape = s.tape := rfl
@[simp] theorem setOut_snd (v : Outputs) : (s.setOut v).snd = s.snd := rfl
@[simp] theorem setOut_vid (v : Outputs) : (s.setOut v).vid = s.vid := rfl
@[simp] theorem setOut_power (v : Outputs) : (s.setOut v).power = s.power := rfl
@[simp] theorem setOut_out (v : Outputs) : (s.setOut v).out = v := rfl
@[simp] theorem setOut_draws (v : Outputs) : (s.setOut v).draws = s.draws := rfl

@[simp] theorem setDraws_a (v : Nat) : (s.setDraws v).a = s.a := rfl
@[simp] theorem setDraws_x (v : Nat) : (s.setDraws v).x = s.x := rfl
@[simp] theorem setDraws_y (v : Nat) : (s.setDraws v).y = s.y := rfl
@[simp] theorem setDraws_sp (v : Nat) : (s.setDraws v).sp = s.sp := rfl
@[simp] theorem setDraws_p (v : Nat) : (s.setDraws v).p = s.p := rfl
@[simp] theorem setDraws_pc (v : Nat) : (s.setDraws v).pc = s.pc := rfl
@[simp] theorem setDraws_latches (v : Nat) : (s.setDraws v).latches = s.latches := rfl
@[simp] theorem setDraws_pendingIrq (v : Nat) : (s.setDraws v).pendingIrq = s.pendingIrq := rfl
@[simp] theorem setDraws_clock (v : Nat) : (s.setDraws v).clock = s.clock := rfl
@[simp] theorem setDraws_ram (v : Nat) : (s.setDraws v).ram = s.ram := rfl
@[simp] theorem setDraws_rom (v : Nat) : (s.setDraws v).rom = s.rom := rfl
@[simp] theorem setDraws_bankMode (v : Nat) : (s.setDraws v).bankMode = s.bankMode := rfl
@[simp] theorem setDraws_kb (v : Nat) : (s.setDraws v).kb = s.kb := rfl
@[simp] theorem setDraws_tape (v : Nat) : (s.setDraws v).tape = s.tape := rfl
@[simp] theorem setDraws_snd (v : Nat) : (s.setDraws v).snd = s.snd := rfl
@[simp] theorem setDraws_vid (v : Nat) : (s.setDraws v).vid = s.vid := rfl
@[simp] theorem setDraws_power (v : Nat) : (s.setDraws v).power = s.power := rfl
@[simp] theorem setDraws_out (v : Nat) : (s.setDraws v).out = s.out := rfl
@[simp] theorem setDraws_draws (v : Nat) : (s.setDraws v).draws = v := rfl

@[simp] theorem emit_a (sig : Signal) : (s.emit sig).a = s.a := rfl
@[simp] theorem emit_x (sig : Signal) : (s.emit sig).x = s.x := rfl
@[simp] theorem emit_y (sig : Signal) : (s.emit sig).y = s.y := rfl
@[simp] theorem emit_sp (sig : Signal) : (s.emit sig).sp = s.sp := rfl
@[simp] theorem emit_p (sig : Signal) : (s.emit sig).p = s.p := rfl
@[simp] theorem emit_pc (sig : Signal) : (s.emit sig).pc = s.pc := rfl
@[simp] theorem emit_latches (sig : Signal) : (s.emit sig).latches = s.latches := rfl
@[simp] theorem emit_pendingIrq (sig : Signal) : (s.emit sig).pendingIrq = s.pendingIrq := rfl
@[simp] theorem emit_clock (sig : Signal) : (s.emit sig).clock = s.clock := rfl
@[simp] theorem emit_ram (sig : Signal) : (s.emit sig).ram = s.ram := rfl
@[simp] theorem emit_rom (sig : Signal) : (s.emit sig).rom = s.rom := rfl
@[simp] theorem emit_bankMode (sig : Signal) : (s.emit sig).bankMode = s.bankMode := rfl
@[simp] theorem emit_kb (sig : Signal) : (s.emit sig).kb = s.kb := rfl
@[simp] theorem emit_tape (sig : Signal) : (s.emit sig).tape = s.tape := rfl
@[simp] theorem emit_snd (sig : Signal) : (s.emit sig).snd = s.snd := rfl
@[simp] theorem emit_vid (sig : Signal) : (s.emit sig).vid = s.vid := rfl
@[simp] theorem emit_power (sig : Signal) : (s.emit sig).power = s.power := rfl
@[simp] theorem emit_out (sig : Signal) : (s.emit sig).out = ⟨s.out.segments, s.out.samples, sig :: s.out.signals⟩ := rfl
@[simp] theorem emit_draws (sig : Signal) : (s.emit sig).draws = s.draws := rfl

@[simp] theorem writeRam_a (a : Nat) (v : Byte) : (s.writeRam a v).a = s.a := rfl
@[simp] theorem writeRam_x (a : Nat) (v : Byte) : (s.writeRam a v).x = s.x := rfl
@[simp] theorem writeRam_y (a : Nat) (v : Byte) : (s.writeRam a v).y = s.y := rfl
@[simp] theorem writeRam_sp (a : Nat) (v : Byte) : (s.writeRam a v).sp = s.sp := rfl
@[simp] theorem writeRam_p (a : Nat) (v : Byte) : (s.writeRam a v).p = s.p := rfl
@[simp] theorem writeRam_pc (a : Nat) (v : Byte) : (s.writeRam a v).pc = s.pc := rfl
@[simp] theorem writeRam_latches (a : Nat) (v : Byte) : (s.writeRam a v).latches = s.latches := rfl
@[simp] theorem writeRam_pendingIrq (a : Nat) (v : Byte) : (s.writeRam a v).pendingIrq = s.pendingIrq := rfl
@[simp] theorem writeRam_clock (a : Nat) (v : Byte) : (s.writeRam a v).clock = s.clock := rfl
@[simp] theorem writeRam_ram (a : Nat) (v : Byte) : (s.writeRam a v).ram = s.ram.write ramDefault a v := rfl
@[simp] theorem writeRam_rom (a : Nat) (v : Byte) : (s.writeRam a v).rom = s.rom := rfl
@[simp] theorem writeRam_bankMode (a : Nat) (v : Byte) : (s.writeRam a v).bankMode = s.bankMode := rfl
@[simp] theorem writeRam_kb (a : Nat) (v : Byte) : (s.writeRam a v).kb = s.kb := rfl
@[simp] theorem writeRam_tape (a : Nat) (v : Byte) : (s.writeRam a v).tape = s.tape := rfl
@[simp] theorem writeRam_snd (a : Nat) (v : Byte) : (s.writeRam a v).snd = s.snd := rfl
@[simp] theorem writeRam_vid (a : Nat) (v : Byte) : (s.writeRam a v).vid = s.vid := rfl
@[simp] theorem writeRam_power (a : Nat) (v : Byte) : (s.writeRam a v).power = s.power := rfl
@[simp] theorem writeRam_out (a : Nat) (v : Byte) : (s.writeRam a v).out = s.out := rfl
@[simp] theorem writeRam_draws (a : Nat) (v : Byte) : (s.writeRam a v).draws = s.draws := rfl

@[simp] theorem tick_a (k : Nat) : (tick k s).a = s.a := rfl
@[simp] theorem tick_x (k : Nat) : (tick k s).x = s.x := rfl
@[simp] theorem tick_y (k : Nat) : (tick k s).y = s.y := rfl
@[simp] theorem tick_sp (k : Nat) : (tick k s).sp = s.sp := rfl
@[simp] theorem tick_p (k : Nat) : (tick k s).p = s.p := rfl
@[simp] theorem tick_pc (k : Nat) : (tick k s).pc = s.pc := rfl
@[simp] theorem tick_latches (k : Nat) : (tick k s).latches = s.latches := rfl
@[simp] theorem tick_pendingIrq (k : Nat) : (tick k s).pendingIrq = s.pendingIrq := rfl
@[simp] theorem tick_clock (k : Nat) : (tick k s).clock = s.clock + k := rfl
@[simp] theorem tick_ram (k : Nat) : (tick k s).ram = s.ram := rfl
@[simp] theorem tick_rom (k : Nat) : (tick k s).rom = s.rom := rfl
@[simp] theorem tick_bankMode (k : Nat) : (tick k s).bankMode = s.bankMode := rfl
@[simp] theorem tick_kb (k : Nat) : (tick k s).kb = s.kb := rfl
@[simp] theorem tick_tape (k : Nat) : (tick k s).tape = s.tape := rfl
@[simp] theorem tick_snd (k : Nat) : (tick k s).snd = s.snd := rfl
@[simp] theorem tick_vid (k : Nat) : (tick k s).vid = s.vid := rfl
@[simp] theorem tick_power (k : Nat) : (tick k s).power = s.power := rfl
@[simp] theorem tick_out (k : Nat) : (tick k s).out = s.out := rfl
@[simp] theorem tick_draws (k : Nat) : (tick k s).draws = s.draws := rfl

end Sys2Proof.Machine.State
end

