-- ==== Sys2Proof/Laws/Bus.lean ====
section
/-! SUPPORT. What a bus access can do, said once: a read changes devices only; a write changes devices and at most the
one RAM byte at its address; and what each of the two does at RAM, ROM and open-bus addresses. -/

namespace Sys2Proof.Machine

/-- `s` with the devices, the outputs and the free-value counter of `u`, but the framebuffer and the scan of `s`. -/
def State.withDevices (s u : State) : State :=
  { s with bankMode := u.bankMode, kb := u.kb, tape := u.tape, snd := u.snd,
           vid := { s.vid with colorMode := u.vid.colorMode, hiresPage := u.vid.hiresPage },
           out := u.out, draws := u.draws }

/-- `t` differs from `s` in its devices, outputs and free-value counter alone. -/
def DevicesOnly (s t : State) : Prop := t = s.withDevices t

theorem DevicesOnly.refl (s : State) : DevicesOnly s s := rfl

theorem DevicesOnly.trans {s t u : State} (h1 : DevicesOnly s t) (h2 : DevicesOnly t u) : DevicesOnly s u := by
  unfold DevicesOnly at *
  rw [h2, h1]
  rfl

theorem drawIoByte_devicesOnly (s : State) : DevicesOnly s (drawIoByte s).2 := rfl

theorem bankSwitch_devicesOnly (t : BankMode) (s : State) : DevicesOnly s (bankSwitch t s) := by
  unfold bankSwitch
  split <;> rfl

theorem emitSegment_devicesOnly (l : Level) (k : Nat) (s : State) : DevicesOnly s (emitSegment l k s) := by
  unfold emitSegment
  simp only
  split <;> rfl

theorem soundAccess_devicesOnly (s : State) : DevicesOnly s (soundAccess s) :=
  (emitSegment_devicesOnly _ _ _).trans rfl

theorem soundRead_devicesOnly (s : State) : DevicesOnly s (soundRead s).2 :=
  (soundAccess_devicesOnly s).trans rfl

theorem keyboardRead_devicesOnly (s : State) : DevicesOnly s (keyboardRead s).2 := rfl

theorem keyboardWrite_devicesOnly (addr : Addr) (v : Byte) (s : State) : DevicesOnly s (keyboardWrite addr v s) := by
  unfold keyboardWrite
  split
  · rfl
  split
  · rfl
  split <;> rfl

theorem endOfTape_devicesOnly (s : State) : DevicesOnly s (endOfTape s) := rfl

theorem tapeArm_devicesOnly (s : State) : DevicesOnly s (tapeArm s) := by
  unfold tapeArm
  split
  · rfl
  split <;> rfl

theorem tapeEdge_devicesOnly (s : State) : DevicesOnly s (tapeEdge s) := by
  unfold tapeEdge
  simp only
  split <;> rfl

theorem tapeAdvance_devicesOnly (s : State) : DevicesOnly s (tapeAdvance s) := by
  unfold tapeAdvance
  split
  · simp only
    split
    · exact (tapeEdge_devicesOnly s).trans (soundRead_devicesOnly _)
    · exact tapeEdge_devicesOnly s
  · rfl

theorem tapeRead_devicesOnly (addr : Addr) (s : State) : DevicesOnly s (tapeRead addr s).2 := by
  unfold tapeRead
  split
  · unfold tapeReadCasin
    simp only
    split
    · exact (tapeArm_devicesOnly s).trans (tapeAdvance_devicesOnly _)
    · rfl
  split
  · exact soundRead_devicesOnly s
  · rfl

theorem videoAccess_devicesOnly (addr : Addr) (s : State) : DevicesOnly s (videoAccess addr s) := by
  unfold videoAccess
  split
  · rfl
  split
  · rfl
  split
  · rfl
  split <;> rfl

theorem deviceRead_devicesOnly (d : Device) (addr : Addr) (s : State) : DevicesOnly s (deviceRead d addr s).2 := by
  cases d with
  | ram => rfl
  | rom => rfl
  | bankSw => exact (bankSwitch_devicesOnly _ s).trans rfl
  | keyboard => rfl
  | tape => exact tapeRead_devicesOnly addr s
  | sound => exact soundRead_devicesOnly s
  | video => exact videoAccess_devicesOnly addr s

theorem readDevices_devicesOnly (ds : List Device) (addr : Addr) (v : Byte) (s : State) :
    DevicesOnly s (readDevices ds addr v s).2 := by
  induction ds generalizing v s with
  | nil => rfl
  | cons d rest ih => exact (deviceRead_devicesOnly d addr s).trans (ih _ _)

/-- A bus read changes devices only: no register, no memory byte, no framebuffer. -/
theorem memRead_devicesOnly (addr : Addr) (s : State) : DevicesOnly s (memRead addr s).2 := by
  unfold memRead
  split
  · rfl
  · exact readDevices_devicesOnly _ _ _ _

/-- What `DevicesOnly` says of each field it keeps. -/
theorem DevicesOnly.kept {s t : State} (h : DevicesOnly s t) :
    t.a = s.a ∧ t.x = s.x ∧ t.y = s.y ∧ t.sp = s.sp ∧ t.p = s.p ∧ t.pc = s.pc ∧ t.latches = s.latches ∧
    t.pendingIrq = s.pendingIrq ∧ t.clock = s.clock ∧ t.ram = s.ram ∧ t.rom = s.rom ∧ t.power = s.power ∧
    t.vid.fb = s.vid.fb ∧ t.vid.scanRow = s.vid.scanRow ∧ t.vid.scanLine = s.vid.scanLine := by
  unfold DevicesOnly at h
  rw [h]
  exact ⟨rfl, rfl, rfl, rfl, rfl, rfl, rfl, rfl, rfl, rfl, rfl, rfl, rfl, rfl, rfl⟩

section
variable (addr : Addr) (s : State)
@[simp] theorem memRead_a : (memRead addr s).2.a = s.a := (memRead_devicesOnly addr s).kept.1
@[simp] theorem memRead_x : (memRead addr s).2.x = s.x := (memRead_devicesOnly addr s).kept.2.1
@[simp] theorem memRead_y : (memRead addr s).2.y = s.y := (memRead_devicesOnly addr s).kept.2.2.1
@[simp] theorem memRead_sp : (memRead addr s).2.sp = s.sp := (memRead_devicesOnly addr s).kept.2.2.2.1
@[simp] theorem memRead_p : (memRead addr s).2.p = s.p := (memRead_devicesOnly addr s).kept.2.2.2.2.1
@[simp] theorem memRead_pc : (memRead addr s).2.pc = s.pc := (memRead_devicesOnly addr s).kept.2.2.2.2.2.1
@[simp] theorem memRead_latches : (memRead addr s).2.latches = s.latches :=
  (memRead_devicesOnly addr s).kept.2.2.2.2.2.2.1
@[simp] theorem memRead_pendingIrq : (memRead addr s).2.pendingIrq = s.pendingIrq :=
  (memRead_devicesOnly addr s).kept.2.2.2.2.2.2.2.1
@[simp] theorem memRead_clock : (memRead addr s).2.clock = s.clock :=
  (memRead_devicesOnly addr s).kept.2.2.2.2.2.2.2.2.1
@[simp] theorem memRead_ram : (memRead addr s).2.ram = s.ram :=
  (memRead_devicesOnly addr s).kept.2.2.2.2.2.2.2.2.2.1
@[simp] theorem memRead_rom : (memRead addr s).2.rom = s.rom :=
  (memRead_devicesOnly addr s).kept.2.2.2.2.2.2.2.2.2.2.1
@[simp] theorem memRead_power : (memRead addr s).2.power = s.power :=
  (memRead_devicesOnly addr s).kept.2.2.2.2.2.2.2.2.2.2.2.1
@[simp] theorem memRead_fb : (memRead addr s).2.vid.fb = s.vid.fb :=
  (memRead_devicesOnly addr s).kept.2.2.2.2.2.2.2.2.2.2.2.2.1
@[simp] theorem memRead_scanRow : (memRead addr s).2.vid.scanRow = s.vid.scanRow :=
  (memRead_devicesOnly addr s).kept.2.2.2.2.2.2.2.2.2.2.2.2.2.1
@[simp] theorem memRead_scanLine : (memRead addr s).2.vid.scanLine = s.vid.scanLine :=
  (memRead_devicesOnly addr s).kept.2.2.2.2.2.2.2.2.2.2.2.2.2.2
@[simp] theorem memRead_ramAt (b : Nat) : (memRead addr s).2.ramAt b = s.ramAt b := by simp [State.ramAt]
@[simp] theorem memRead_romAt (b : Nat) : (memRead addr s).2.romAt b = s.romAt b := by simp [State.romAt]
end

/-- The addresses below 0xC000 are RAM whatever the bank. -/
theorem route_low {bank : BankMode} {addr : Addr} (h : addr.toNat < 0xC000) : route bank addr = [.ram] := by
  simp [route, h]

/-- The window is the current bank's memory. -/
theorem route_window {bank : BankMode} {addr : Addr} (h : 0xC100 ≤ addr.toNat) :
    route bank addr = windowDevices bank := by
  have hw : ¬ addr.toNat < Config.windowStart := Nat.not_lt.2 h
  simp only [route]
  iterate 18 rw [if_neg (by omega)]
  rw [if_neg hw]

theorem route_of_isRam {bank : BankMode} {addr : Addr} (h : isRam bank addr) : route bank addr = [.ram] := by
  rcases h with h | ⟨h, rfl⟩
  · exact route_low h
  · exact route_window h

theorem route_of_isRom {bank : BankMode} {addr : Addr} (h : isRom bank addr) : route bank addr = [.rom] := by
  obtain ⟨h, rfl⟩ := h
  exact route_window h

/-- The routing of an address outside the window does not depend on the bank. -/
theorem route_bank {b1 b2 : BankMode} {addr : Addr} (h : addr.toNat < 0xC100) : route b1 addr = route b2 addr := by
  have key : ∀ b, route b addr = route .rom addr := by
    intro b
    have hw : addr.toNat < Config.windowStart := h
    simp only [route, hw, if_true]
  rw [key b1, key b2]

/-- Only RAM addresses have RAM among their devices. -/
theorem isRam_of_ram_mem_route {bank : BankMode} {addr : Addr} (h : Device.ram ∈ route bank addr) : isRam bank addr := by
  by_cases hlo : addr.toNat < 0xC000
  · exact .inl hlo
  by_cases hhi : addr.toNat < 0xC100
  · exfalso
    have hw : addr.toNat < Config.windowStart := hhi
    have step : ∀ (c : Prop) [Decidable c] (l m : List Device), Device.ram ∉ l → Device.ram ∉ m →
        Device.ram ∉ (if c then l else m) := fun c _ l m hl hm => by by_cases hc : c <;> simp [hc, hl, hm]
    revert h
    simp only [route, if_neg hlo, hw, if_true]
    iterate 16 refine step _ _ _ (by decide) ?_
    refine step _ _ _ (by decide) ?_
    decide
  · rw [route_window (by omega)] at h
    cases bank
    · simp [windowDevices] at h
    · exact .inr ⟨by omega, rfl⟩

/-- The bus has no device at the addresses of 20 R61. -/
theorem route_openBus {bank : BankMode} {addr : Addr} (h : isOpenBus addr) : route bank addr = [] := by
  have hw : addr.toNat < Config.windowStart := by
    show _ < 0xC100
    unfold isOpenBus at h
    omega
  unfold isOpenBus at h
  rcases h with h | h | h | h | h | h | h | h <;> simp (disch := omega) only [route, if_pos, if_neg]

theorem route_speaker {bank : BankMode} {addr : Addr} (h1 : 0xC030 ≤ addr.toNat) (h2 : addr.toNat ≤ 0xC03F) :
    route bank addr = [.sound] := by
  simp (disch := omega) only [route, if_pos, if_neg]

/-- The keyboard's addresses but the one it shares with the tape. -/
theorem route_keyboard {bank : BankMode} {addr : Addr}
    (h : 0xC000 ≤ addr.toNat ∧ addr.toNat ≤ 0xC01F ∧ addr.toNat ≠ 0xC010 ∨ addr.toNat = 0xC05E ∨ addr.toNat = 0xC05F) :
    route bank addr = [.keyboard] := by
  have hc : addr.toNat < 0xC010 ∨ 0xC010 < addr.toNat ∧ addr.toNat < 0xC020 ∨
      0xC05E ≤ addr.toNat ∧ addr.toNat < 0xC060 := by omega
  rcases hc with hc | hc | hc <;> simp (disch := omega) only [route, if_pos, if_neg]

/-- The one address with two devices. -/
theorem route_keyboard_tape (bank : BankMode) : route bank 0xC010 = [.keyboard, .tape] := by
  cases bank <;> decide

/-- The tape's addresses but the one it shares with the keyboard. -/
theorem route_tape {bank : BankMode} {addr : Addr}
    (h : 0xC020 ≤ addr.toNat ∧ addr.toNat ≤ 0xC02F ∨ addr.toNat = 0xC052 ∨ addr.toNat = 0xC053 ∨ addr.toNat = 0xC056 ∨
      addr.toNat = 0xC057 ∨ addr.toNat = 0xC070 ∨ addr.toNat = 0xC071) : route bank addr = [.tape] := by
  rcases h with h | h | h | h | h | h | h <;> simp (disch := omega) only [route, if_pos, if_neg]

theorem route_video {bank : BankMode} {addr : Addr}
    (h : addr.toNat = 0xC050 ∨ addr.toNat = 0xC051 ∨ addr.toNat = 0xC054 ∨ addr.toNat = 0xC055) :
    route bank addr = [.video] := by
  rcases h with h | h | h | h <;> simp (disch := omega) only [route, if_pos, if_neg]

theorem route_bankSw {bank : BankMode} {addr : Addr}
    (h : addr.toNat = 0xC05A ∨ addr.toNat = 0xC05B ∨ 0xC080 ≤ addr.toNat ∧ addr.toNat ≤ 0xC08B) :
    route bank addr = [.bankSw] := by
  rcases h with h | h | h <;> simp (disch := omega) only [route, if_pos, if_neg]

/-- A read of an address with one device is that device's read. -/
theorem memRead_of_single {addr : Addr} {s : State} {d : Device} (h : route s.bankMode addr = [d]) :
    memRead addr s = deviceRead d addr s := by
  simp [memRead, h, readDevices]

/-- A write of an address with one device is that device's write. -/
theorem memWrite_of_single {addr : Addr} {v : Byte} {s : State} {d : Device} (h : route s.bankMode addr = [d]) :
    memWrite addr v s = deviceWrite d addr v s := by
  simp [memWrite, h, writeDevices]

/-- A read of a RAM address is the RAM byte, and changes nothing (20 R55). -/
theorem memRead_of_isRam {addr : Addr} {s : State} (h : isRam s.bankMode addr) :
    memRead addr s = (s.ramAt addr.toNat, s) := by
  simp [memRead, route_of_isRam h, readDevices, deviceRead]

/-- A read of a ROM address is the ROM byte, and changes nothing (20 R56). -/
theorem memRead_of_isRom {addr : Addr} {s : State} (h : isRom s.bankMode addr) :
    memRead addr s = (s.romAt (addr.toNat - 0xC000), s) := by
  simp [memRead, route_of_isRom h, readDevices, deviceRead]

theorem memWrite_of_isRam {addr : Addr} {v : Byte} {s : State} (h : isRam s.bankMode addr) :
    memWrite addr v s = s.writeRam addr.toNat v := by
  simp [memWrite, route_of_isRam h, writeDevices, deviceWrite]

theorem memWrite_of_isRom {addr : Addr} {v : Byte} {s : State} (h : isRom s.bankMode addr) :
    memWrite addr v s = s := by
  simp [memWrite, route_of_isRom h, writeDevices, deviceWrite]

@[simp] theorem writeRam_ramAt_same (s : State) (a : Nat) (v : Byte) : (s.writeRam a v).ramAt a = v := by
  simp [State.ramAt]

theorem writeRam_ramAt_other (s : State) {a b : Nat} (v : Byte) (h : b ≠ a) : (s.writeRam a v).ramAt b = s.ramAt b := by
  simpa [State.ramAt] using Memory.read_write_other ramDefault s.ram v h

theorem deviceWrite_devicesOnly {d : Device} (hd : d ≠ .ram) (addr : Addr) (v : Byte) (s : State) :
    DevicesOnly s (deviceWrite d addr v s) := by
  cases d with
  | ram => exact absurd rfl hd
  | rom => rfl
  | bankSw => exact bankSwitch_devicesOnly _ s
  | keyboard => exact keyboardWrite_devicesOnly addr v s
  | tape => rfl
  | sound => exact soundAccess_devicesOnly s
  | video => exact videoAccess_devicesOnly addr s

theorem writeDevices_devicesOnly {ds : List Device} (h : Device.ram ∉ ds) (addr : Addr) (v : Byte) (s : State) :
    DevicesOnly s (writeDevices ds addr v s) := by
  induction ds generalizing s with
  | nil => rfl
  | cons d rest ih =>
    simp only [List.mem_cons, not_or] at h
    exact (deviceWrite_devicesOnly (Ne.symm h.1) addr v s).trans (ih h.2 _)

/-- A bus write either stores one RAM byte and does nothing else, or changes devices only. -/
theorem memWrite_cases (addr : Addr) (v : Byte) (s : State) :
    (isRam s.bankMode addr ∧ memWrite addr v s = s.writeRam addr.toNat v) ∨
    (¬ isRam s.bankMode addr ∧ DevicesOnly s (memWrite addr v s)) := by
  by_cases h : isRam s.bankMode addr
  · exact .inl ⟨h, memWrite_of_isRam h⟩
  · exact .inr ⟨h, writeDevices_devicesOnly (fun hm => h (isRam_of_ram_mem_route hm)) addr v s⟩

/-- What a bus write keeps of each field. -/
theorem memWrite_kept (addr : Addr) (v : Byte) (s : State) :
    (memWrite addr v s).a = s.a ∧ (memWrite addr v s).x = s.x ∧ (memWrite addr v s).y = s.y ∧
    (memWrite addr v s).sp = s.sp ∧ (memWrite addr v s).p = s.p ∧ (memWrite addr v s).pc = s.pc ∧
    (memWrite addr v s).latches = s.latches ∧ (memWrite addr v s).pendingIrq = s.pendingIrq ∧
    (memWrite addr v s).clock = s.clock ∧ (memWrite addr v s).rom = s.rom ∧ (memWrite addr v s).power = s.power ∧
    (memWrite addr v s).vid.fb = s.vid.fb ∧ (memWrite addr v s).vid.scanRow = s.vid.scanRow ∧
    (memWrite addr v s).vid.scanLine = s.vid.scanLine := by
  rcases memWrite_cases addr v s with ⟨-, h⟩ | ⟨-, h⟩
  · rw [h]
    exact ⟨rfl, rfl, rfl, rfl, rfl, rfl, rfl, rfl, rfl, rfl, rfl, rfl, rfl, rfl⟩
  · obtain ⟨h1, h2, h3, h4, h5, h6, h7, h8, h9, -, h11, h12, h13, h14, h15⟩ := h.kept
    exact ⟨h1, h2, h3, h4, h5, h6, h7, h8, h9, h11, h12, h13, h14, h15⟩

section
variable (addr : Addr) (v : Byte) (s : State)
@[simp] theorem memWrite_a : (memWrite addr v s).a = s.a := (memWrite_kept addr v s).1
@[simp] theorem memWrite_x : (memWrite addr v s).x = s.x := (memWrite_kept addr v s).2.1
@[simp] theorem memWrite_y : (memWrite addr v s).y = s.y := (memWrite_kept addr v s).2.2.1
@[simp] theorem memWrite_sp : (memWrite addr v s).sp = s.sp := (memWrite_kept addr v s).2.2.2.1
@[simp] theorem memWrite_p : (memWrite addr v s).p = s.p := (memWrite_kept addr v s).2.2.2.2.1
@[simp] theorem memWrite_pc : (memWrite addr v s).pc = s.pc := (memWrite_kept addr v s).2.2.2.2.2.1
@[simp] theorem memWrite_latches : (memWrite addr v s).latches = s.latches := (memWrite_kept addr v s).2.2.2.2.2.2.1
@[simp] theorem memWrite_pendingIrq : (memWrite addr v s).pendingIrq = s.pendingIrq :=
  (memWrite_kept addr v s).2.2.2.2.2.2.2.1
@[simp] theorem memWrite_clock : (memWrite addr v s).clock = s.clock := (memWrite_kept addr v s).2.2.2.2.2.2.2.2.1
@[simp] theorem memWrite_rom : (memWrite addr v s).rom = s.rom := (memWrite_kept addr v s).2.2.2.2.2.2.2.2.2.1
@[simp] theorem memWrite_power : (memWrite addr v s).power = s.power := (memWrite_kept addr v s).2.2.2.2.2.2.2.2.2.2.1
@[simp] theorem memWrite_fb : (memWrite addr v s).vid.fb = s.vid.fb := (memWrite_kept addr v s).2.2.2.2.2.2.2.2.2.2.2.1
@[simp] theorem memWrite_scanRow : (memWrite addr v s).vid.scanRow = s.vid.scanRow :=
  (memWrite_kept addr v s).2.2.2.2.2.2.2.2.2.2.2.2.1
@[simp] theorem memWrite_scanLine : (memWrite addr v s).vid.scanLine = s.vid.scanLine :=
  (memWrite_kept addr v s).2.2.2.2.2.2.2.2.2.2.2.2.2
@[simp] theorem memWrite_romAt (b : Nat) : (memWrite addr v s).romAt b = s.romAt b := by simp [State.romAt]
end

/-- A bus write leaves every RAM byte but the one at its address alone. -/
theorem memWrite_ramAt_other {addr : Addr} {v : Byte} {s : State} {b : Nat} (h : b ≠ addr.toNat) :
    (memWrite addr v s).ramAt b = s.ramAt b := by
  rcases memWrite_cases addr v s with ⟨-, hw⟩ | ⟨-, hw⟩
  · rw [hw, writeRam_ramAt_other _ _ h]
  · simp [State.ramAt, hw.kept.2.2.2.2.2.2.2.2.2.1]

/-- A bus write keeps RAM in canonical form. -/
theorem memWrite_ram_wf {s : State} (h : s.ram.wf ramDefault ramSize) (addr : Addr) (v : Byte) :
    (memWrite addr v s).ram.wf ramDefault ramSize := by
  rcases memWrite_cases addr v s with ⟨-, hw⟩ | ⟨-, hw⟩
  · rw [hw]
    exact Memory.wf_write h addr.isLt v
  · rw [hw.kept.2.2.2.2.2.2.2.2.2.1]
    exact h

/-- The nested bus read the tape makes is the speaker's port: the bus routes 0xC030 to the speaker alone (20 R54). -/
theorem memRead_speaker (s : State) : memRead 0xC030 s = soundRead s := by
  have hr : route s.bankMode 0xC030 = [.sound] := by cases s.bankMode <;> decide
  rw [memRead, hr]
  simp [readDevices, deviceRead]

/-- A zero-page address is RAM. -/
theorem isRam_zeroPage (bank : BankMode) (n : Byte) : isRam bank (zeroPage n) := by
  left
  have := n.isLt
  simp only [zeroPage, BitVec.toNat_setWidth]
  omega

theorem toNat_stackAddr (sp : Byte) : (stackAddr sp).toNat = 0x100 + sp.toNat := by
  have : stackAddr sp = (0x01#8 ++ sp : BitVec 16) := by
    apply BitVec.eq_of_getLsbD_eq
    intro i hi
    simp only [stackAddr, BitVec.getLsbD_or, BitVec.getLsbD_setWidth, BitVec.getLsbD_append]
    by_cases h8 : i < 8
    · interval_cases i <;> simp
    · have : sp.getLsbD i = false := BitVec.getLsbD_of_ge _ _ (by omega)
      interval_cases i <;> simp_all
  rw [this, BitVec.toNat_append, ← Nat.shiftLeft_add_eq_or_of_lt sp.isLt]
  simp

/-- A stack address is RAM. -/
theorem isRam_stackAddr (bank : BankMode) (sp : Byte) : isRam bank (stackAddr sp) := by
  left
  have := sp.isLt
  rw [toNat_stackAddr]
  omega

/-- A segment emitted, said whole: the segment is recorded, and its samples unless something suppresses them (47 R276,
R277). -/
theorem emitSegment_eq (l : Level) (k : Nat) (s : State) :
    emitSegment l k s = s.setOut { s.out with
      segments := ⟨l, k⟩ :: s.out.segments
      samples := (if sampleCount k ≤ 16000 ∧ s.snd.enabled = true ∧ s.snd.available = true then
        [⟨sampleAmplitude l, sampleCount k⟩] else []) ++ s.out.samples } := by
  by_cases h1 : sampleCount k ≤ 16000 <;> cases h2 : s.snd.enabled <;> cases h3 : s.snd.available <;>
    simp [emitSegment, h1, h2, h3]

/-- One access of the speaker, said whole (47 R275). -/
theorem soundAccess_eq (s : State) : soundAccess s = speakerToggled s := by
  rw [soundAccess, emitSegment_eq]
  simp only [speakerToggled, speakerSamples]
  cases s.snd.line <;> rfl

/-- The keyboard's byte on numbers (47 R252). -/
theorem keyboardByte_eq (kb : Keyboard) : keyboardByte kb = scanCode kb := by
  have e1 : kb.kbin = 1#8 <<< kb.row.val ↔ kb.kbin.toNat = 2 ^ kb.row.val := by
    have : (1#8 <<< kb.row.val).toNat = 2 ^ kb.row.val := by
      obtain ⟨r, hr⟩ := kb.row
      interval_cases r <;> rfl
    rw [← this, BitVec.toNat_inj]
  have e2 : 1#8 <<< kb.col.val = BitVec.ofNat 8 (2 ^ kb.col.val) := by
    obtain ⟨c, hc⟩ := kb.col
    interval_cases c <;> rfl
  simp only [keyboardByte, scanCode, e1, e2, Bool.and_eq_true, decide_eq_true_eq]

end Sys2Proof.Machine
end

