-- ==== Sys2Proof/Laws/Decode.lean ====
section
/-! SUPPORT. The byte order helpers, and the lengths of instructions. -/

namespace Sys2Proof

/-- A word is its two bytes. -/
@[simp] theorem word_hiByte_loByte (w : Addr) : word (hiByte w) (loByte w) = w := by
  apply BitVec.eq_of_getLsbD_eq
  intro i hi
  simp only [word, hiByte, loByte, BitVec.getLsbD_append, BitVec.getLsbD_extractLsb']
  by_cases h : i < 8
  · simp [h]
  · have h1 : 8 + (i - 8) = i := by omega
    have h2 : i - 8 < 8 := by omega
    simp [h, h1, h2]

/-- `h:l` as a number (00 R8). -/
theorem toNat_word (h l : Byte) : (word h l).toNat = h.toNat * 256 + l.toNat := by
  rw [word, BitVec.toNat_append, ← Nat.shiftLeft_add_eq_or_of_lt l.isLt, Nat.shiftLeft_eq]

theorem toNat_loByte (w : Addr) : (loByte w).toNat = w.toNat % 256 := by
  simp [loByte, BitVec.extractLsb'_toNat]

theorem toNat_hiByte (w : Addr) : (hiByte w).toNat = w.toNat / 256 := by
  have := w.isLt
  simp only [hiByte, BitVec.extractLsb'_toNat, Nat.shiftRight_eq_div_pow]
  omega

theorem hiByte_eq_ofNat (w : Addr) : hiByte w = BitVec.ofNat 8 (w.toNat / 256) := by
  apply BitVec.eq_of_toNat_eq
  have := w.isLt
  rw [toNat_hiByte, BitVec.toNat_ofNat]
  omega

theorem loByte_eq_ofNat (w : Addr) : loByte w = BitVec.ofNat 8 (w.toNat % 256) := by
  apply BitVec.eq_of_toNat_eq
  rw [toNat_loByte, BitVec.toNat_ofNat]
  omega

theorem word_eq_ofNat (h l : Byte) : word h l = BitVec.ofNat 16 (h.toNat * 256 + l.toNat) := by
  rw [← toNat_word, BitVec.ofNat_toNat, BitVec.setWidth_eq]

@[simp] theorem loByte_word (h l : Byte) : loByte (word h l) = l := by
  apply BitVec.eq_of_toNat_eq
  rw [toNat_loByte, toNat_word]
  have := l.isLt
  omega

@[simp] theorem hiByte_word (h l : Byte) : hiByte (word h l) = h := by
  apply BitVec.eq_of_toNat_eq
  rw [toNat_hiByte, toNat_word]
  have := l.isLt
  omega

/-- Every mode's length is 1, 2 or 3 (30 R100). -/
theorem Mode.length_mem (m : Mode) : m.length = 1 ∨ m.length = 2 ∨ m.length = 3 := by
  cases m <;> simp [Mode.length]

/-- Every instruction's length is 1, 2 or 3 (30 R100). -/
theorem Instr.length_mem (i : Instr) : i.length = 1 ∨ i.length = 2 ∨ i.length = 3 := i.mode.length_mem

/-- Decoding by the length that the opcode alone gives (30 R100, R108). -/
theorem decode_one {op : Byte} (h : opcodeLength op = 1) (rest : List Byte) :
    decode (op :: rest) = .ok (assemble op 0 0, rest) := by
  cases rest <;> simp [decode, h]

theorem decode_two {op : Byte} (h : opcodeLength op = 2) (n : Byte) (rest : List Byte) :
    decode (op :: n :: rest) = .ok (assemble op n 0, rest) := by
  simp [decode, h]

theorem decode_three {op : Byte} (h : opcodeLength op = 3) (l u : Byte) (rest : List Byte) :
    decode (op :: l :: u :: rest) = .ok (assemble op 0 (word u l), rest) := by
  simp [decode, h]

theorem opcodeLength_mem (op : Byte) : opcodeLength op = 1 ∨ opcodeLength op = 2 ∨ opcodeLength op = 3 :=
  (assemble op 0 0).length_mem

end Sys2Proof
end

