-- ==== Sys2Proof/Laws/Flags.lean ====
section
/-! SUPPORT. Reading the status register after each of its updates. -/

namespace Sys2Proof.Machine

theorem getLsbD_setFlag (p : Byte) (f : Flag) (v : Bool) (i : Nat) :
    (setFlag p f v).getLsbD i = if i = f.bit then v else p.getLsbD i := by
  by_cases hi : i < 8
  · cases f <;> cases v <;> simp only [setFlag, Flag.bit] <;> interval_cases i <;> simp
  · have h1 : ∀ q : Byte, q.getLsbD i = false := fun q => BitVec.getLsbD_of_ge q i (by omega)
    have h2 : i ≠ f.bit := by cases f <;> simp only [Flag.bit] <;> omega
    rw [h1, h1, if_neg h2]

/-- Writing one flag writes that flag and no other. -/
@[simp] theorem getFlag_setFlag (p : Byte) (f g : Flag) (v : Bool) :
    getFlag (setFlag p f v) g = if g = f then v else getFlag p g := by
  have h : g.bit = f.bit ↔ g = f := by cases f <;> cases g <;> simp [Flag.bit]
  rw [getFlag, getLsbD_setFlag]
  simp only [h, getFlag]

/-- Writing a flag keeps the unnamed bit 5. -/
@[simp] theorem setFlag_bit5 (p : Byte) (f : Flag) (v : Bool) : unusedBit (setFlag p f v) = unusedBit p := by
  rw [unusedBit, getLsbD_setFlag]
  cases f <;> simp [Flag.bit, unusedBit]

/-- `SetNZ`: N is bit 7, Z is "is zero", every other flag is kept. -/
@[simp] theorem getFlag_setNZ (v p : Byte) (g : Flag) :
    getFlag (setNZ v p) g = if g = .z then v == 0 else if g = .n then v.getLsbD 7 else getFlag p g := by
  simp only [setNZ, getFlag_setFlag]

@[simp] theorem setNZ_bit5 (v p : Byte) : unusedBit (setNZ v p) = unusedBit p := by
  simp [setNZ]

/-- Two status bytes with the same named flags and the same bit 5 are equal. -/
theorem status_ext {p q : Byte} (h : ∀ f, getFlag p f = getFlag q f) (h5 : unusedBit p = unusedBit q) : p = q := by
  have hc := h .c
  have hz := h .z
  have hi := h .i
  have hd := h .d
  have hb := h .b
  have hv := h .v
  have hn := h .n
  simp only [getFlag, Flag.bit] at hc hz hi hd hb hv hn
  simp only [unusedBit] at h5
  apply BitVec.eq_of_getLsbD_eq
  intro i hi8
  interval_cases i <;> assumption

theorem getLsbD_statusOfByte (v : Byte) (i : Nat) :
    (statusOfByte v).getLsbD i = if i = 5 then true else v.getLsbD i := by
  by_cases hi : i < 8
  · interval_cases i <;> simp [statusOfByte]
  · have h1 : ∀ q : Byte, q.getLsbD i = false := fun q => BitVec.getLsbD_of_ge q i (by omega)
    rw [h1, h1, if_neg (by omega)]

@[simp] theorem getFlag_statusOfByte (v : Byte) (f : Flag) : getFlag (statusOfByte v) f = getFlag v f := by
  rw [getFlag, getLsbD_statusOfByte, getFlag]
  cases f <;> simp [Flag.bit]

@[simp] theorem statusOfByte_bit5 (v : Byte) : unusedBit (statusOfByte v) = true := by
  simp only [unusedBit, getLsbD_statusOfByte, if_true]

/-- The 9-bit result of the adder is at most 511. -/
theorem add9_lt (a m : Byte) (c : Bool) : add9 a m c < 512 := by
  have h1 := a.isLt
  have h2 := m.isLt
  have h3 : c.toNat ≤ 1 := Bool.toNat_le c
  simp only [add9]
  omega

/-- The carry out of the adder is "the sum is at least 256". -/
theorem carryOut_add9 (a m : Byte) (c : Bool) : carryOut (add9 a m c) = decide (256 ≤ add9 a m c) := by
  have h := add9_lt a m c
  have hdiv : add9 a m c / 256 % 2 = add9 a m c / 256 := by omega
  simp only [carryOut, Nat.testBit_eq_decide_div_mod_eq, Nat.reducePow, hdiv, decide_eq_decide]
  omega

/-- Every flag computation of the instruction set keeps bit 5 of the status. -/
@[simp] theorem adcResult_bit5 (a m p : Byte) : unusedBit (adcResult a m p).2 = unusedBit p := by simp [adcResult]
@[simp] theorem sbcResult_bit5 (a m p : Byte) : unusedBit (sbcResult a m p).2 = unusedBit p := by simp [sbcResult]
@[simp] theorem compareStatus_bit5 (r m p : Byte) : unusedBit (compareStatus r m p) = unusedBit p := by
  simp [compareStatus]
@[simp] theorem aslResult_bit5 (v p : Byte) : unusedBit (aslResult v p).2 = unusedBit p := by simp [aslResult]
@[simp] theorem lsrResult_bit5 (v p : Byte) : unusedBit (lsrResult v p).2 = unusedBit p := by simp [lsrResult]
@[simp] theorem rolResult_bit5 (v p : Byte) : unusedBit (rolResult v p).2 = unusedBit p := by simp [rolResult]
@[simp] theorem rorResult_bit5 (v p : Byte) : unusedBit (rorResult v p).2 = unusedBit p := by simp [rorResult]
@[simp] theorem incResult_bit5 (v p : Byte) : unusedBit (incResult v p).2 = unusedBit p := by simp [incResult]
@[simp] theorem decResult_bit5 (v p : Byte) : unusedBit (decResult v p).2 = unusedBit p := by simp [decResult]
@[simp] theorem trbResult_bit5 (a v p : Byte) : unusedBit (trbResult a v p).2 = unusedBit p := by simp [trbResult]
@[simp] theorem tsbResult_bit5 (a v p : Byte) : unusedBit (tsbResult a v p).2 = unusedBit p := by simp [tsbResult]
@[simp] theorem bitMemStatus_bit5 (a m p : Byte) : unusedBit (bitMemStatus a m p) = unusedBit p := by
  simp [bitMemStatus]
@[simp] theorem bitImmStatus_bit5 (a m p : Byte) : unusedBit (bitImmStatus a m p) = unusedBit p := by
  simp [bitImmStatus]

theorem getLsbD7_eq (a : Byte) : a.getLsbD 7 = decide (128 ≤ a.toNat) := by
  revert a
  decide

theorem toNat_xorFF (m : Byte) : (m ^^^ 0xFF).toNat = 255 - m.toNat := by
  revert m
  decide

theorem toInt_xorFF (m : Byte) : (m ^^^ 0xFF).toInt = -1 - m.toInt := by
  revert m
  decide

/-- The overflow rule of the adder on numbers: equal signs in, the other sign out. -/
theorem ovf_iff (a m : Byte) (t : Nat) : ovf a m t = true ↔
    (128 ≤ a.toNat ↔ 128 ≤ m.toNat) ∧ ¬ (128 ≤ a.toNat ↔ 128 ≤ t % 256) := by
  have key : ∀ x : Byte, ((x &&& 0x80) == 0) = !x.getLsbD 7 := by decide
  have hx : ∀ x : Byte, ((x &&& 0x80) != 0) = x.getLsbD 7 := by decide
  simp only [ovf, key, hx, BitVec.getLsbD_xor]
  simp only [getLsbD7_eq, BitVec.toNat_ofNat]
  by_cases ha : 128 ≤ a.toNat <;> by_cases hm : 128 ≤ m.toNat <;> by_cases ht : 128 ≤ t % 256 <;> simp [ha, hm, ht]

/-- The overflow of a sum is "outside -128 to 127" (42 R160). -/
theorem ovf_add9_iff (a m : Byte) (c : Bool) : ovf a m (add9 a m c) = true ↔
    (a.toInt + m.toInt + c.toNat < -128 ∨ 127 < a.toInt + m.toInt + c.toNat) := by
  have h1 := a.isLt
  have h2 := m.isLt
  have h3 : c.toNat ≤ 1 := Bool.toNat_le c
  simp only [ovf_iff, add9, BitVec.toInt_eq_toNat_cond]
  split <;> split <;> omega

/-- ADC's V, in both modes. -/
theorem adcResult_v (a m p : Byte) : getFlag (adcResult a m p).2 .v = true ↔
    (a.toInt + m.toInt + (getFlag p .c).toNat < -128 ∨ 127 < a.toInt + m.toInt + (getFlag p .c).toNat) := by
  rw [← ovf_add9_iff]
  simp [adcResult]

/-- ADC's byte and carry in binary mode. -/
theorem adcResult_binary {p : Byte} (h : getFlag p .d = false) (a m : Byte) :
    (adcResult a m p).1.toNat = (a.toNat + m.toNat + (getFlag p .c).toNat) % 256 ∧
      (getFlag (adcResult a m p).2 .c = true ↔ 256 ≤ a.toNat + m.toNat + (getFlag p .c).toNat) := by
  refine ⟨by simp [adcResult, h, add9], ?_⟩
  have : getFlag (adcResult a m p).2 .c = carryOut (add9 a m (getFlag p .c)) := by simp [adcResult, h]
  rw [this, carryOut_add9, add9, decide_eq_true_iff]

/-- ADC's byte and carry in decimal mode. -/
theorem adcResult_decimal {p : Byte} (h : getFlag p .d = true) (a m : Byte) :
    ((adcResult a m p).1, getFlag (adcResult a m p).2 .c) = decAdd a m (getFlag p .c) := by
  simp [adcResult, h]

/-- ADC's N and Z, in both modes, and the flags it keeps. -/
theorem adcResult_flags (a m p : Byte) :
    getFlag (adcResult a m p).2 .n = (adcResult a m p).1.getLsbD 7 ∧
      getFlag (adcResult a m p).2 .z = ((adcResult a m p).1 == 0) ∧
      ∀ f, f ≠ .n → f ≠ .v → f ≠ .z → f ≠ .c → getFlag (adcResult a m p).2 f = getFlag p f := by
  refine ⟨by simp [adcResult], by simp [adcResult], fun f h1 h2 h3 h4 => by simp [adcResult, h1, h2, h3, h4]⟩

/-- SBC's V, in both modes. -/
theorem sbcResult_v (a m p : Byte) : getFlag (sbcResult a m p).2 .v = true ↔
    (a.toInt - m.toInt - (1 - (getFlag p .c).toNat : Nat) < -128 ∨
      127 < a.toInt - m.toInt - (1 - (getFlag p .c).toNat : Nat)) := by
  have : getFlag (sbcResult a m p).2 .v = ovf a (m ^^^ 0xFF) (add9 a (m ^^^ 0xFF) (getFlag p .c)) := by
    simp only [sbcResult, getFlag_setNZ, getFlag_setFlag]
    rfl
  rw [this, ovf_add9_iff, toInt_xorFF]
  cases getFlag p .c <;> simp only [Bool.toNat_true, Bool.toNat_false] <;> omega

/-- SBC's byte and carry in binary mode: the difference modulo 256, and "no borrow". -/
theorem sbcResult_binary {p : Byte} (h : getFlag p .d = false) (a m : Byte) :
    (sbcResult a m p).1.toNat = (a.toNat + 256 - m.toNat - (1 - (getFlag p .c).toNat)) % 256 ∧
      (getFlag (sbcResult a m p).2 .c = true ↔ m.toNat + (1 - (getFlag p .c).toNat) ≤ a.toNat) := by
  have hm := m.isLt
  have hc : (getFlag p .c).toNat ≤ 1 := Bool.toNat_le _
  have h1 : (sbcResult a m p).1 = BitVec.ofNat 8 (add9 a (m ^^^ 0xFF) (getFlag p .c)) := by simp [sbcResult, h]
  have h2 : getFlag (sbcResult a m p).2 .c = carryOut (add9 a (m ^^^ 0xFF) (getFlag p .c)) := by simp [sbcResult, h]
  rw [h1, h2, carryOut_add9, add9, toNat_xorFF, decide_eq_true_iff, BitVec.toNat_ofNat]
  omega

/-- SBC's byte and carry in decimal mode. -/
theorem sbcResult_decimal {p : Byte} (h : getFlag p .d = true) (a m : Byte) :
    ((sbcResult a m p).1, getFlag (sbcResult a m p).2 .c) = decSub a m (getFlag p .c) := by
  simp [sbcResult, h]

/-- SBC's N and Z, in both modes, and the flags it keeps. -/
theorem sbcResult_flags (a m p : Byte) :
    getFlag (sbcResult a m p).2 .n = (sbcResult a m p).1.getLsbD 7 ∧
      getFlag (sbcResult a m p).2 .z = ((sbcResult a m p).1 == 0) ∧
      ∀ f, f ≠ .n → f ≠ .v → f ≠ .z → f ≠ .c → getFlag (sbcResult a m p).2 f = getFlag p f := by
  refine ⟨by simp [sbcResult], by simp [sbcResult], fun f h1 h2 h3 h4 => by simp [sbcResult, h1, h2, h3, h4]⟩

/-- A comparison's flags: C is "at least", Z is "equal", N is bit 7 of the difference, the rest kept. -/
theorem compareStatus_flags (r m p : Byte) :
    (getFlag (compareStatus r m p) .c = true ↔ m.toNat ≤ r.toNat) ∧
      (getFlag (compareStatus r m p) .z = true ↔ r = m) ∧
      getFlag (compareStatus r m p) .n = (r - m).getLsbD 7 ∧
      ∀ f, f ≠ .n → f ≠ .z → f ≠ .c → getFlag (compareStatus r m p) f = getFlag p f := by
  have hm := m.isLt
  have hr := r.isLt
  have hd : BitVec.ofNat 8 (add9 r (m ^^^ 0xFF) true) = r - m := by
    apply BitVec.eq_of_toNat_eq
    rw [BitVec.toNat_ofNat, add9, toNat_xorFF, BitVec.toNat_sub, Bool.toNat_true]
    omega
  have hc : getFlag (compareStatus r m p) .c = carryOut (add9 r (m ^^^ 0xFF) true) := by simp [compareStatus]
  refine ⟨?_, ?_, ?_, fun f h1 h2 h3 => by simp [compareStatus, h1, h2, h3]⟩
  · rw [hc, carryOut_add9, add9, toNat_xorFF, decide_eq_true_iff, Bool.toNat_true]
    omega
  · simp only [compareStatus, hd, getFlag_setNZ, if_true, beq_iff_eq]
    bv_omega
  · simp only [compareStatus, hd, getFlag_setNZ]
    rfl

theorem aslResult_toNat (v p : Byte) : (aslResult v p).1.toNat = 2 * v.toNat % 256 := by
  simp only [aslResult, BitVec.toNat_shiftLeft, Nat.shiftLeft_eq]
  omega

theorem lsrResult_toNat (v p : Byte) : (lsrResult v p).1.toNat = v.toNat / 2 := by
  simp [lsrResult, BitVec.toNat_ushiftRight, Nat.shiftRight_eq_div_pow]

theorem rolResult_toNat (v p : Byte) : (rolResult v p).1.toNat = (2 * v.toNat + (getFlag p .c).toNat) % 256 := by
  have h0 := aslResult_toNat v p
  have e : (v <<< 1 ||| 1#8) = v <<< 1 + 1#8 := by
    refine (BitVec.add_eq_or_of_and_eq_zero _ _ ?_).symm
    ext i hi
    interval_cases i <;> simp
  simp only [rolResult]
  cases getFlag p .c
  · simpa [aslResult] using h0
  · show (v <<< 1 ||| 1#8).toNat = _
    rw [e, BitVec.toNat_add, show (v <<< 1).toNat = _ from h0]
    simp

theorem rorResult_toNat (v p : Byte) : (rorResult v p).1.toNat = v.toNat / 2 + 128 * (getFlag p .c).toNat := by
  have hv := v.isLt
  have h0 := lsrResult_toNat v p
  have e : (v >>> 1 ||| 128#8) = v >>> 1 + 128#8 := by
    refine (BitVec.add_eq_or_of_and_eq_zero _ _ ?_).symm
    ext i hi
    interval_cases i <;> simp
  simp only [rorResult]
  cases getFlag p .c
  · simpa [lsrResult] using h0
  · show (v >>> 1 ||| 128#8).toNat = _
    rw [e, BitVec.toNat_add, show (v >>> 1).toNat = _ from h0]
    simp
    omega

end Sys2Proof.Machine
end

