-- ==== Sys2Proof/Laws/Ops.lean ====
section
/-! SUPPORT. What each shared operation does, said once, for later proofs to cite instead of unfolding it. -/

namespace Sys2Proof.Machine

theorem toNat_zeroPage (n : Byte) : (zeroPage n).toNat = n.toNat := by
  have := n.isLt
  simp only [zeroPage, BitVec.toNat_setWidth]
  omega

theorem memRead_zeroPage (n : Byte) (s : State) : memRead (zeroPage n) s = (s.ramAt n.toNat, s) := by
  rw [memRead_of_isRam (isRam_zeroPage _ n), toNat_zeroPage]

/-- A pointer in page zero is its two RAM bytes, and reading it changes nothing. -/
theorem readPointer_eq (z : Byte) (s : State) :
    readPointer z s = (word (s.ramAt (z + 1).toNat) (s.ramAt z.toNat), s) := by
  simp [readPointer, memRead_zeroPage]

/-- Computing an effective address changes nothing. -/
@[simp] theorem effectiveAddress_state (m : MemOperand) (s : State) : (effectiveAddress m s).2 = s := by
  cases m <;> simp [effectiveAddress, readPointer_eq]

/-- `Load`: an immediate, or one bus read of the effective address. -/
theorem load_mem (m : MemOperand) (s : State) : load (.mem m) s = memRead (effectiveAddress m s).1 s := by
  simp [load]

/-- A load changes devices only. -/
theorem load_devicesOnly (o : Operand) (s : State) : DevicesOnly s (load o s).2 := by
  cases o with
  | imm n => rfl
  | mem m => simpa [load_mem] using memRead_devicesOnly _ s

section
variable (o : Operand) (s : State)
@[simp] theorem load_a : (load o s).2.a = s.a := (load_devicesOnly o s).kept.1
@[simp] theorem load_x : (load o s).2.x = s.x := (load_devicesOnly o s).kept.2.1
@[simp] theorem load_y : (load o s).2.y = s.y := (load_devicesOnly o s).kept.2.2.1
@[simp] theorem load_sp : (load o s).2.sp = s.sp := (load_devicesOnly o s).kept.2.2.2.1
@[simp] theorem load_p : (load o s).2.p = s.p := (load_devicesOnly o s).kept.2.2.2.2.1
@[simp] theorem load_pc : (load o s).2.pc = s.pc := (load_devicesOnly o s).kept.2.2.2.2.2.1
@[simp] theorem load_latches : (load o s).2.latches = s.latches := (load_devicesOnly o s).kept.2.2.2.2.2.2.1
@[simp] theorem load_pendingIrq : (load o s).2.pendingIrq = s.pendingIrq := (load_devicesOnly o s).kept.2.2.2.2.2.2.2.1
@[simp] theorem load_clock : (load o s).2.clock = s.clock := (load_devicesOnly o s).kept.2.2.2.2.2.2.2.2.1
@[simp] theorem load_ram : (load o s).2.ram = s.ram := (load_devicesOnly o s).kept.2.2.2.2.2.2.2.2.2.1
@[simp] theorem load_rom : (load o s).2.rom = s.rom := (load_devicesOnly o s).kept.2.2.2.2.2.2.2.2.2.2.1
@[simp] theorem load_power : (load o s).2.power = s.power := (load_devicesOnly o s).kept.2.2.2.2.2.2.2.2.2.2.2.1
end

/-- `Store` is one bus write of the effective address. -/
theorem store_eq (m : MemOperand) (v : Byte) (s : State) : store m v s = memWrite (effectiveAddress m s).1 v s := by
  simp [store]

/-- `Modify` is one read, one write of the same address, and the status. -/
theorem modify_eq (m : MemOperand) (f : Byte → Byte → Byte × Byte) (s : State) :
    modify m f s =
      (memWrite (effectiveAddress m s).1 (f (memRead (effectiveAddress m s).1 s).1 s.p).1
        (memRead (effectiveAddress m s).1 s).2).setP (f (memRead (effectiveAddress m s).1 s).1 s.p).2 := by
  simp [modify]

/-- `Push` stores one RAM byte of page 1 and decrements `S`. -/
theorem push_eq (v : Byte) (s : State) :
    push v s = (s.writeRam (0x100 + s.sp.toNat) v).setSp (s.sp - 1) := by
  rw [push, memWrite_of_isRam (isRam_stackAddr _ _), toNat_stackAddr]

/-- `Pop` increments `S` and reads one RAM byte of page 1. -/
theorem pop_eq (s : State) : pop s = (s.ramAt (0x100 + (s.sp + 1).toNat), s.setSp (s.sp + 1)) := by
  rw [pop, memRead_of_isRam (isRam_stackAddr _ _), toNat_stackAddr]
  rfl

theorem pop16_eq (s : State) :
    pop16 s = (word (s.ramAt (0x100 + (s.sp + 2).toNat)) (s.ramAt (0x100 + (s.sp + 1).toNat)), s.setSp (s.sp + 2)) := by
  have h : s.sp + 1 + 1 = s.sp + 2 := by bv_omega
  simp only [pop16, pop_eq, State.setSp_sp, h]
  rfl

theorem push16_eq (w : Addr) (s : State) :
    push16 w s = ((s.writeRam (0x100 + s.sp.toNat) (hiByte w)).writeRam (0x100 + (s.sp - 1).toNat) (loByte w)).setSp
      (s.sp - 2) := by
  have h : s.sp - 1 - 1 = s.sp - 2 := by bv_omega
  simp only [push16, push_eq, State.setSp_sp, h]
  rfl

section
variable (v : Byte) (w : Addr) (s : State)
@[simp] theorem push_a : (push v s).a = s.a := by simp [push_eq]
@[simp] theorem push_x : (push v s).x = s.x := by simp [push_eq]
@[simp] theorem push_y : (push v s).y = s.y := by simp [push_eq]
@[simp] theorem push_sp : (push v s).sp = s.sp - 1 := by simp [push_eq]
@[simp] theorem push_p : (push v s).p = s.p := by simp [push_eq]
@[simp] theorem push_pc : (push v s).pc = s.pc := by simp [push_eq]
@[simp] theorem push_latches : (push v s).latches = s.latches := by simp [push_eq]
@[simp] theorem push_pendingIrq : (push v s).pendingIrq = s.pendingIrq := by simp [push_eq]
@[simp] theorem push_clock : (push v s).clock = s.clock := by simp [push_eq]
@[simp] theorem push_rom : (push v s).rom = s.rom := by simp [push_eq]
@[simp] theorem push_bankMode : (push v s).bankMode = s.bankMode := by simp [push_eq]
@[simp] theorem push_kb : (push v s).kb = s.kb := by simp [push_eq]
@[simp] theorem push_tape : (push v s).tape = s.tape := by simp [push_eq]
@[simp] theorem push_snd : (push v s).snd = s.snd := by simp [push_eq]
@[simp] theorem push_vid : (push v s).vid = s.vid := by simp [push_eq]
@[simp] theorem push_power : (push v s).power = s.power := by simp [push_eq]
@[simp] theorem push_out : (push v s).out = s.out := by simp [push_eq]
@[simp] theorem push_draws : (push v s).draws = s.draws := by simp [push_eq]
@[simp] theorem push16_a : (push16 w s).a = s.a := by simp [push16]
@[simp] theorem push16_x : (push16 w s).x = s.x := by simp [push16]
@[simp] theorem push16_y : (push16 w s).y = s.y := by simp [push16]
@[simp] theorem push16_sp : (push16 w s).sp = s.sp - 2 := by simp [push16_eq]
@[simp] theorem push16_p : (push16 w s).p = s.p := by simp [push16]
@[simp] theorem push16_pc : (push16 w s).pc = s.pc := by simp [push16]
@[simp] theorem push16_latches : (push16 w s).latches = s.latches := by simp [push16]
@[simp] theorem push16_pendingIrq : (push16 w s).pendingIrq = s.pendingIrq := by simp [push16]
@[simp] theorem push16_clock : (push16 w s).clock = s.clock := by simp [push16]
@[simp] theorem push16_rom : (push16 w s).rom = s.rom := by simp [push16]
@[simp] theorem push16_bankMode : (push16 w s).bankMode = s.bankMode := by simp [push16]
@[simp] theorem push16_kb : (push16 w s).kb = s.kb := by simp [push16]
@[simp] theorem push16_tape : (push16 w s).tape = s.tape := by simp [push16]
@[simp] theorem push16_snd : (push16 w s).snd = s.snd := by simp [push16]
@[simp] theorem push16_vid : (push16 w s).vid = s.vid := by simp [push16]
@[simp] theorem push16_power : (push16 w s).power = s.power := by simp [push16]
@[simp] theorem push16_out : (push16 w s).out = s.out := by simp [push16]
@[simp] theorem push16_draws : (push16 w s).draws = s.draws := by simp [push16]
end

/-- A push leaves every RAM byte but the one it stores alone. -/
theorem push_ramAt_other {v : Byte} {s : State} {b : Nat} (h : b ≠ 0x100 + s.sp.toNat) :
    (push v s).ramAt b = s.ramAt b := by
  rw [push_eq]
  exact writeRam_ramAt_other _ _ h

@[simp] theorem push_ramAt_same (v : Byte) (s : State) : (push v s).ramAt (0x100 + s.sp.toNat) = v := by
  rw [push_eq]
  exact writeRam_ramAt_same _ _ _

theorem push_ram_wf {s : State} (h : s.ram.wf ramDefault ramSize) (v : Byte) : (push v s).ram.wf ramDefault ramSize := by
  rw [push]
  exact memWrite_ram_wf h _ _

/-- `Read16` changes devices only. -/
theorem read16_devicesOnly (addr : Addr) (s : State) : DevicesOnly s (read16 addr s).2 :=
  (memRead_devicesOnly _ _).trans (memRead_devicesOnly _ _)

section
variable (addr : Addr) (s : State)
@[simp] theorem read16_a : (read16 addr s).2.a = s.a := (read16_devicesOnly addr s).kept.1
@[simp] theorem read16_x : (read16 addr s).2.x = s.x := (read16_devicesOnly addr s).kept.2.1
@[simp] theorem read16_y : (read16 addr s).2.y = s.y := (read16_devicesOnly addr s).kept.2.2.1
@[simp] theorem read16_sp : (read16 addr s).2.sp = s.sp := (read16_devicesOnly addr s).kept.2.2.2.1
@[simp] theorem read16_p : (read16 addr s).2.p = s.p := (read16_devicesOnly addr s).kept.2.2.2.2.1
@[simp] theorem read16_latches : (read16 addr s).2.latches = s.latches := (read16_devicesOnly addr s).kept.2.2.2.2.2.2.1
@[simp] theorem read16_pendingIrq : (read16 addr s).2.pendingIrq = s.pendingIrq :=
  (read16_devicesOnly addr s).kept.2.2.2.2.2.2.2.1
@[simp] theorem read16_clock : (read16 addr s).2.clock = s.clock := (read16_devicesOnly addr s).kept.2.2.2.2.2.2.2.2.1
@[simp] theorem read16_ram : (read16 addr s).2.ram = s.ram := (read16_devicesOnly addr s).kept.2.2.2.2.2.2.2.2.2.1
@[simp] theorem read16_rom : (read16 addr s).2.rom = s.rom := (read16_devicesOnly addr s).kept.2.2.2.2.2.2.2.2.2.2.1
@[simp] theorem read16_power : (read16 addr s).2.power = s.power :=
  (read16_devicesOnly addr s).kept.2.2.2.2.2.2.2.2.2.2.2.1
end

/-- A read inside the BankSW window is a read of the current bank's memory, and changes nothing. -/
theorem memRead_window {addr : Addr} {s : State} (h : 0xC100 ≤ addr.toNat) :
    memRead addr s = (match s.bankMode with | .rom => s.romAt (addr.toNat - 0xC000) | .ram => s.ramAt addr.toNat, s) := by
  cases hb : s.bankMode with
  | rom => exact memRead_of_isRom ⟨h, hb⟩
  | ram => exact memRead_of_isRam (.inr ⟨h, hb⟩)

/-- The vectors are read from the current bank's memory, and reading one changes nothing. -/
theorem read16_vector {v : Addr} (h1 : 0xC100 ≤ v.toNat) (h2 : 0xC100 ≤ (v + 1).toNat) (s : State) :
    read16 v s =
      (match s.bankMode with
        | .rom => word (s.romAt ((v + 1).toNat - 0xC000)) (s.romAt (v.toNat - 0xC000))
        | .ram => word (s.ramAt (v + 1).toNat) (s.ramAt v.toNat), s) := by
  simp only [read16, memRead_window h1, memRead_window h2]
  cases s.bankMode <;> rfl

/-- `Fetch8` reads at `PC` and moves it on. -/
theorem fetch8_eq (s : State) : fetch8 s = ((memRead s.pc s).1, (memRead s.pc s).2.setPc (s.pc + 1)) := rfl

/-- The replay rule, case by case. -/
theorem replayIrq_cases (s : State) :
    (getFlag s.p .i = false ∧ 0 < s.pendingIrq ∧
      replayIrq s = (s.setPendingIrq (s.pendingIrq - 1)).setLatches { s.latches with irq := true }) ∨
    (¬ (getFlag s.p .i = false ∧ 0 < s.pendingIrq) ∧ replayIrq s = s) := by
  by_cases h : getFlag s.p .i = false ∧ 0 < s.pendingIrq
  · exact .inl ⟨h.1, h.2, by simp [replayIrq, h]⟩
  · exact .inr ⟨h, by simp only [replayIrq, if_neg h]⟩

section
variable (s : State)
@[simp] theorem replayIrq_a : (replayIrq s).a = s.a := by unfold replayIrq; split <;> rfl
@[simp] theorem replayIrq_x : (replayIrq s).x = s.x := by unfold replayIrq; split <;> rfl
@[simp] theorem replayIrq_y : (replayIrq s).y = s.y := by unfold replayIrq; split <;> rfl
@[simp] theorem replayIrq_sp : (replayIrq s).sp = s.sp := by unfold replayIrq; split <;> rfl
@[simp] theorem replayIrq_p : (replayIrq s).p = s.p := by unfold replayIrq; split <;> rfl
@[simp] theorem replayIrq_pc : (replayIrq s).pc = s.pc := by unfold replayIrq; split <;> rfl
@[simp] theorem replayIrq_clock : (replayIrq s).clock = s.clock := by unfold replayIrq; split <;> rfl
@[simp] theorem replayIrq_ram : (replayIrq s).ram = s.ram := by unfold replayIrq; split <;> rfl
@[simp] theorem replayIrq_rom : (replayIrq s).rom = s.rom := by unfold replayIrq; split <;> rfl
@[simp] theorem replayIrq_bankMode : (replayIrq s).bankMode = s.bankMode := by unfold replayIrq; split <;> rfl
@[simp] theorem replayIrq_kb : (replayIrq s).kb = s.kb := by unfold replayIrq; split <;> rfl
@[simp] theorem replayIrq_tape : (replayIrq s).tape = s.tape := by unfold replayIrq; split <;> rfl
@[simp] theorem replayIrq_snd : (replayIrq s).snd = s.snd := by unfold replayIrq; split <;> rfl
@[simp] theorem replayIrq_vid : (replayIrq s).vid = s.vid := by unfold replayIrq; split <;> rfl
@[simp] theorem replayIrq_power : (replayIrq s).power = s.power := by unfold replayIrq; split <;> rfl
@[simp] theorem replayIrq_out : (replayIrq s).out = s.out := by unfold replayIrq; split <;> rfl
@[simp] theorem replayIrq_draws : (replayIrq s).draws = s.draws := by unfold replayIrq; split <;> rfl
end

theorem stackSlot_ne {a b : Byte} (h : a ≠ b) : stackSlot a ≠ stackSlot b := by
  intro e
  apply h
  apply BitVec.eq_of_toNat_eq
  simp only [stackSlot] at e
  omega

theorem stackSlot_bounds (sp : Byte) : 0x100 ≤ stackSlot sp ∧ stackSlot sp < 0x200 := by
  have := sp.isLt
  simp only [stackSlot]
  omega

/-- A 16-bit push: the two bytes, and every other RAM byte as before. -/
theorem push16_ramAt (w : Addr) (s : State) :
    (push16 w s).ramAt (stackSlot s.sp) = hiByte w ∧ (push16 w s).ramAt (stackSlot (s.sp - 1)) = loByte w ∧
      ∀ b, b ≠ stackSlot s.sp → b ≠ stackSlot (s.sp - 1) → (push16 w s).ramAt b = s.ramAt b := by
  rw [push16]
  have e : (push (hiByte w) s).sp = s.sp - 1 := push_sp _ _
  refine ⟨?_, ?_, fun b h1 h2 => ?_⟩
  · rw [push_ramAt_other (by rw [e]; exact stackSlot_ne (by bv_omega))]
    exact push_ramAt_same _ _
  · have := push_ramAt_same (loByte w) (push (hiByte w) s)
    rw [e] at this
    exact this
  · rw [push_ramAt_other (by rw [e]; exact h2), push_ramAt_other (by exact h1)]

/-- Reading a vector gives the address it holds, and changes nothing. -/
theorem read16_vectorAt {v : Addr} {n : Nat} (hn : v.toNat = n) (h1 : 0xC100 ≤ n) (h2 : n < 0xFFFF) (s : State) :
    read16 v s = (s.vectorAt n, s) := by
  have e : (v + 1).toNat = n + 1 := by
    simp [BitVec.toNat_add]
    omega
  rw [read16_vector (by omega) (by omega), e, hn, State.vectorAt]
  cases s.bankMode <;> simp [word_eq_ofNat]

/-- A vector depends on the bank, ROM, and RAM above page 1. -/
theorem vectorAt_congr {s t : State} {n : Nat} (hb : t.bankMode = s.bankMode) (hr : ∀ k, t.romAt k = s.romAt k)
    (h : ∀ k, 0x200 ≤ k → t.ramAt k = s.ramAt k) (hn : 0x200 ≤ n) : t.vectorAt n = s.vectorAt n := by
  simp only [State.vectorAt, hb, hr]
  rw [h (n + 1) (by omega), h n hn]

/-- Entering an interrupt, said whole: the frame is pushed, `S` is 3 less, `P` is as given, `PC` is the address the vector
holds, 7 cycles pass, and nothing else changes. -/
theorem enterInterrupt_effect (ret : Addr) (status p' : Byte) {v : Addr} {n : Nat} (hn : v.toNat = n) (h1 : 0xC100 ≤ n)
    (h2 : n < 0xFFFF) (s : State) :
    (∃ ram, enterInterrupt ret status p' v s =
      { s with sp := s.sp - 3, p := p', pc := s.vectorAt n, clock := s.clock + 7, ram := ram }) ∧
      framePushed ret status s (enterInterrupt ret status p' v s) := by
  have hs : s.sp - 2 - 1 = s.sp - 3 := by bv_omega
  obtain ⟨a1, a2, a3⟩ := push16_ramAt ret s
  have b1 := push_ramAt_same status (push16 ret s)
  have b2 : ∀ b, b ≠ stackSlot (s.sp - 2) → (push status (push16 ret s)).ramAt b = (push16 ret s).ramAt b :=
    fun b hb => push_ramAt_other (by rw [push16_sp]; exact hb)
  rw [push16_sp] at b1
  have hv : ((push status (push16 ret s)).setP p').vectorAt n = s.vectorAt n := by
    refine vectorAt_congr ?_ (fun k => ?_) (fun k hk => ?_) (by omega)
    · simp
    · simp [State.romAt]
    · show (push status (push16 ret s)).ramAt k = _
      have := stackSlot_bounds s.sp
      have := stackSlot_bounds (s.sp - 1)
      have := stackSlot_bounds (s.sp - 2)
      rw [b2 _ (by omega), a3 _ (by omega) (by omega)]
  refine ⟨⟨(push status (push16 ret s)).ram, ?_⟩, ?_, ?_, ?_, ?_⟩
  · rw [enterInterrupt]
    simp only [read16_vectorAt hn h1 h2, hv]
    rw [push_eq, push16_eq, tick]
    simp only [State.setClock, State.setPc, State.setP, State.setSp, State.writeRam, State.setRam, hs]
  all_goals
    simp only [enterInterrupt, read16_vectorAt hn h1 h2, tick, State.ramAt, State.setClock_ram, State.setPc_ram,
      State.setP_ram]
  · change (push status (push16 ret s)).ramAt _ = _
    rw [b2 _ (stackSlot_ne (by bv_omega)), a1, hiByte_eq_ofNat]
  · change (push status (push16 ret s)).ramAt _ = _
    rw [b2 _ (stackSlot_ne (by bv_omega)), a2, loByte_eq_ofNat]
  · exact b1
  · intro b h3 h4 h5
    change (push status (push16 ret s)).ramAt _ = s.ramAt _
    rw [b2 _ h5, a3 _ h3 h4]

/-- Entering an interrupt, field by field. -/
theorem enterInterrupt_kept (ret : Addr) (status p' : Byte) (vector : Addr) (s : State) :
    let t := enterInterrupt ret status p' vector s
    t.a = s.a ∧ t.x = s.x ∧ t.y = s.y ∧ t.sp = s.sp - 3 ∧ t.p = p' ∧ t.latches = s.latches ∧
    t.pendingIrq = s.pendingIrq ∧ t.clock = s.clock + 7 ∧ t.rom = s.rom ∧ t.power = s.power := by
  have h : s.sp - 2#8 - 1#8 = s.sp - 3#8 := by bv_omega
  simp [enterInterrupt, h]

section
variable (s : State)
/-! What each operation adds to the clock (70 R350). -/
@[simp] theorem tick_clock (k : Nat) : (tick k s).clock = s.clock + k := rfl
@[simp] theorem store_clock (m : MemOperand) (v : Byte) : (store m v s).clock = s.clock := by simp [store_eq]
@[simp] theorem modify_clock (m : MemOperand) (f : Byte → Byte → Byte × Byte) : (modify m f s).clock = s.clock := by
  simp [modify_eq]
@[simp] theorem pop_clock : (pop s).2.clock = s.clock := by simp [pop_eq]
@[simp] theorem pop16_clock : (pop16 s).2.clock = s.clock := by simp [pop16_eq]
@[simp] theorem enterInterrupt_clock (ret : Addr) (st p' : Byte) (v : Addr) :
    (enterInterrupt ret st p' v s).clock = s.clock + 7 := (enterInterrupt_kept ret st p' v s).2.2.2.2.2.2.2.1
@[simp] theorem returnFromInterrupt_clock : (returnFromInterrupt s).clock = s.clock := by simp [returnFromInterrupt]
@[simp] theorem emit_clock (sig : Signal) : (s.emit sig).clock = s.clock := rfl
@[simp] theorem branchIf_clock (c : Bool) (n : Byte) :
    (branchIf c n s).clock = s.clock + 2 + (if c then 1 else 0) := by cases c <;> rfl
end

end Sys2Proof.Machine
end

