-- ==== Sys2Proof/Laws/Effects.lean ====
section
/-! SUPPORT. What each shared operation of the instruction families leaves, in the terms of Safety: one lemma per
operation, for any operand and any cycle count. -/

namespace Sys2Proof.Machine

/-- A state that is the one after an operand's reads, but for the registers, the status and the cycles, meets
`readEffect` once its registers and flags do. -/
theorem readEffect_intro {rs : List Reg} {fs : List Flag} {o : Operand} {k : Nat} {s t : State}
    (ht : t = tick k { (load o s).2 with a := t.a, x := t.x, y := t.y, p := t.p })
    (hr : registersKeptExcept rs s t) (hf : flagsKeptExcept fs s t) : readEffect rs fs o k s t := by
  refine ⟨hr, hf, ⟨?_, ?_, ?_, ?_, ?_⟩, fun b => ⟨?_, ?_⟩, ?_⟩
  · rw [ht]; exact load_pc o s
  · rw [ht]; exact congrArg (· + k) (load_clock o s)
  · rw [ht]; exact load_latches o s
  · rw [ht]; exact load_pendingIrq o s
  · rw [ht]; exact load_power o s
  · rw [ht]; exact congrArg (fun m => Memory.read ramDefault m b) (load_ram o s)
  · rw [ht]; exact congrArg (fun m => Memory.read romDefault m b) (load_rom o s)
  · rw [ht]; exact ⟨rfl, rfl, rfl, rfl, rfl, rfl, rfl⟩

/-- A status that `SetNZ` leaves. -/
theorem nzOf_setNZ {v p : Byte} {t : State} (h : t.p = setNZ v p) : nzOf v t := by
  simp [nzOf, h]

theorem nzFrom_setNZ (v p : Byte) : nzFrom v p (setNZ v p) :=
  ⟨by simp, by simp, fun f hn hz => by simp [hn, hz], by simp⟩

theorem onlyFlagSet_setFlag (f : Flag) (v : Bool) (p : Byte) : onlyFlagSet f v p (setFlag p f v) :=
  ⟨by simp, fun g hg => by simp [hg], by simp⟩

/-- A bus write stores its byte at its address where the bus has RAM, and changes no other byte of memory. -/
theorem byteStored_memWrite (ea : Addr) (v : Byte) (s : State) : byteStored ea v s (memWrite ea v s) := by
  refine ⟨fun b => ⟨fun hb => ?_, by simp⟩, fun h => ?_, fun h => ?_⟩
  · exact memWrite_ramAt_other (by simpa using hb)
  · rw [memWrite_of_isRam h, writeRam_ramAt_same]
  · rcases memWrite_cases ea v s with ⟨hr, -⟩ | ⟨-, hd⟩
    · exact absurd hr h
    · simp [State.ramAt, hd.kept.2.2.2.2.2.2.2.2.2.1]

/-- `byteStored` speaks of memory and the bank alone. -/
theorem byteStored_congr {ea : Addr} {v : Byte} {s s' t t' : State} (h : byteStored ea v s t) (hs : s'.ram = s.ram)
    (hr : s'.rom = s.rom) (hb : isRam s'.bankMode ea ↔ isRam s.bankMode ea) (ht : t'.ram = t.ram)
    (htr : t'.rom = t.rom) : byteStored ea v s' t' := by
  simp only [byteStored, memoryKeptExcept, State.ramAt, State.romAt, hs, hr, hb, ht, htr] at h ⊢
  exact h

/-- Reading an address does not change whether the bus has RAM there. -/
theorem isRam_after_read (ea : Addr) (s : State) : isRam (memRead ea s).2.bankMode ea ↔ isRam s.bankMode ea := by
  by_cases h : isRam s.bankMode ea
  · rw [memRead_of_isRam h]
  · by_cases hw : 0xC100 ≤ ea.toNat
    · rw [memRead_window hw]
    · simp only [isRam]
      omega

/-- A store, for any operand and cycle count. -/
theorem storeByte_effect (m : MemOperand) (v : Byte) (k : Nat) (s : State) :
    storeEffect m v k s (storeByte m v k s) := by
  have hs := byteStored_memWrite (effectiveAddress m s).1 v s
  refine ⟨fun r _ => ?_, ?_, ⟨?_, ?_, ?_, ?_, ?_⟩, ?_, ?_⟩
  · cases r <;> simp [storeByte, store_eq, tick, State.reg]
  · simp [storeByte, store_eq, tick]
  · simp [storeByte, store_eq, tick]
  · simp [storeByte, store_eq, tick]
  · simp [storeByte, store_eq, tick]
  · simp [storeByte, store_eq, tick]
  · simp [storeByte, store_eq, tick]
  · rw [storeByte, store_eq]
    exact byteStored_congr hs rfl rfl Iff.rfl rfl rfl
  · rw [storeByte, store_eq]
    exact ⟨rfl, rfl, rfl, rfl, rfl, rfl, rfl⟩

/-- A read-modify-write, for any operation that writes no flag but `fs`. -/
theorem modifyMemory_effect {fs : List Flag} {f : Byte → Byte → Byte × Byte} (m : MemOperand) (k : Nat) (s : State)
    (hf : ∀ g, g ∉ fs → getFlag (f (operandByte m s) s.p).2 g = getFlag s.p g)
    (h5 : unusedBit (f (operandByte m s) s.p).2 = unusedBit s.p) :
    modifyEffect fs m (f (operandByte m s) s.p).1 k s (modifyMemory f m k s) ∧
      (modifyMemory f m k s).p = (f (operandByte m s) s.p).2 := by
  have hs := byteStored_memWrite (effectiveAddress m s).1 (f (operandByte m s) s.p).1
    (memRead (effectiveAddress m s).1 s).2
  have ht : modifyMemory f m k s = tick k ((memWrite (effectiveAddress m s).1 (f (operandByte m s) s.p).1
    (memRead (effectiveAddress m s).1 s).2).setP (f (operandByte m s) s.p).2) := by
    rw [modifyMemory, modify_eq]
    rfl
  have hp : (modifyMemory f m k s).p = (f (operandByte m s) s.p).2 := by rw [ht]; rfl
  refine ⟨⟨fun r _ => ?_, ⟨fun g hg => ?_, ?_⟩, ⟨?_, ?_, ?_, ?_, ?_⟩, ?_, ?_⟩, hp⟩
  · rw [ht]
    cases r <;> simp [tick, State.reg]
  · rw [hp, hf g hg]
  · rw [hp, h5]
  · simp [ht, tick]
  · simp [ht, tick]
  · simp [ht, tick]
  · simp [ht, tick]
  · simp [ht, tick]
  · rw [ht]
    exact byteStored_congr hs (by simp) (by simp) (isRam_after_read _ s).symm rfl rfl
  · rw [ht]
    exact ⟨rfl, rfl, rfl, rfl, rfl, rfl, rfl⟩

/-- A push, with the cycles of its instruction. -/
theorem pushByte_effect (v : Byte) (s : State) : bytePushed v 3 s (pushByte v s) := by
  refine ⟨?_, ?_, fun b hb => ?_⟩
  · rw [pushByte, push_eq]
    rfl
  · exact push_ramAt_same v s
  · exact push_ramAt_other (s := s) (v := v) hb

end Sys2Proof.Machine
end

