-- ==== Sys2Proof/Laws/Invariant.lean ====
section
/-! SUPPORT. Each shared operation keeps the invariant of the machine: the devices' part of it first, then bus accesses,
then the operations of the instruction families. -/

namespace Sys2Proof.Machine

/-- The devices' part of the invariant: the tape and the speaker. -/
def DevicesInv (s : State) : Prop :=
  s.tape.consistent s.clock ∧ s.snd.last ≤ s.clock ∧ (s.snd.available = false → s.snd.lastError = some .unavailable)

theorem stateInv_iff (s : State) : StateInv s ↔
    s.ram.wf ramDefault ramSize ∧ s.rom.wf romDefault romSize ∧ unusedBit s.p = true ∧ DevicesInv s ∧
      s.vid.fb.wf ∧ s.vid.scanRow < scanlines ∧ s.vid.scanLine.length < lineBytes :=
  ⟨fun h => ⟨h.1, h.2, h.3, ⟨h.4, h.5, h.6⟩, h.7, h.8, h.9⟩,
   fun ⟨a, b, c, ⟨d, e, f⟩, g, i, j⟩ => ⟨a, b, c, d, e, f, g, i, j⟩⟩

namespace DevicesInv

variable {s : State}

theorem soundAccess (h : DevicesInv s) : DevicesInv (soundAccess s) := by
  rw [soundAccess_eq]
  exact ⟨h.1, Nat.le_refl _, h.2.2⟩

theorem soundRead (h : DevicesInv s) : DevicesInv (soundRead s).2 := h.soundAccess

theorem endOfTape (h : DevicesInv s) : DevicesInv (endOfTape s) := ⟨fun hc => (by cases hc), h.2⟩

theorem tapeEdge (h : DevicesInv s) (ha : s.tape.active = true) : DevicesInv (tapeEdge s) := by
  simp only [Machine.tapeEdge]
  cases hw : s.tape.wave[s.tape.head + 1]? with
  | none => exact ⟨fun hc => (by cases hc), h.2⟩
  | some d => exact ⟨fun _ => ⟨(h.1 ha).1, hw, Nat.le_refl _⟩, h.2⟩

theorem tapeArm (h : DevicesInv s) (hp : s.tape.play = true) : DevicesInv (tapeArm s) := by
  unfold Machine.tapeArm
  split
  · exact h
  · cases hw : s.tape.wave[s.tape.head]? with
    | none => exact h.endOfTape
    | some d => exact ⟨fun _ => ⟨hp, hw, Nat.le_refl _⟩, h.2⟩

theorem tapeAdvance (h : DevicesInv s) : DevicesInv (tapeAdvance s) := by
  unfold Machine.tapeAdvance
  split
  · rename_i hc
    simp only [Bool.and_eq_true] at hc
    simp only
    split
    · exact (h.tapeEdge hc.1).soundRead
    · exact h.tapeEdge hc.1
  · exact h

theorem tapeRead (h : DevicesInv s) (addr : Addr) : DevicesInv (tapeRead addr s).2 := by
  unfold Machine.tapeRead
  split
  · unfold tapeReadCasin
    simp only
    split
    · exact (h.tapeArm ‹_›).tapeAdvance
    · exact h
  · split
    · exact h.soundRead
    · exact h

theorem bankSwitch (h : DevicesInv s) (t : BankMode) : DevicesInv (bankSwitch t s) := by
  unfold Machine.bankSwitch
  split <;> exact h

theorem videoAccess (h : DevicesInv s) (addr : Addr) : DevicesInv (videoAccess addr s) := by
  unfold Machine.videoAccess
  (repeat' split) <;> exact h

theorem keyboardWrite (h : DevicesInv s) (addr : Addr) (v : Byte) : DevicesInv (keyboardWrite addr v s) := by
  unfold Machine.keyboardWrite
  (repeat' split) <;> exact h

theorem deviceRead (h : DevicesInv s) (d : Device) (addr : Addr) : DevicesInv (deviceRead d addr s).2 := by
  cases d with
  | ram | rom | keyboard => exact h
  | bankSw => exact h.bankSwitch _
  | tape => exact h.tapeRead addr
  | sound => exact h.soundRead
  | video => exact h.videoAccess addr

theorem deviceWrite (h : DevicesInv s) (d : Device) (addr : Addr) (v : Byte) :
    DevicesInv (deviceWrite d addr v s) := by
  cases d with
  | ram | rom | tape => exact h
  | bankSw => exact h.bankSwitch _
  | keyboard => exact h.keyboardWrite _ _
  | sound => exact h.soundAccess
  | video => exact h.videoAccess addr

theorem readDevices (ds : List Device) (addr : Addr) {s : State} (v : Byte) (h : DevicesInv s) :
    DevicesInv (readDevices ds addr v s).2 := by
  induction ds generalizing s v with
  | nil => exact h
  | cons d ds ih => exact ih _ (h.deviceRead d addr)

theorem writeDevices (ds : List Device) (addr : Addr) (v : Byte) {s : State} (h : DevicesInv s) :
    DevicesInv (writeDevices ds addr v s) := by
  induction ds generalizing s with
  | nil => exact h
  | cons d ds ih => exact ih (h.deviceWrite d addr v)

theorem memRead (h : DevicesInv s) (addr : Addr) : DevicesInv (memRead addr s).2 := by
  unfold Machine.memRead
  split
  · exact h
  · exact readDevices _ _ _ h

end DevicesInv

namespace StateInv

variable {s : State}

theorem memRead (h : StateInv s) (addr : Addr) : StateInv (memRead addr s).2 := by
  rw [stateInv_iff] at *
  simpa using ⟨h.1, h.2.1, h.2.2.1, h.2.2.2.1.memRead addr, h.2.2.2.2⟩

theorem memWrite (h : StateInv s) (addr : Addr) (v : Byte) : StateInv (memWrite addr v s) := by
  rw [stateInv_iff] at *
  exact ⟨memWrite_ram_wf h.1 _ _, by simpa using h.2.1, by simpa using h.2.2.1, .writeDevices _ _ _ h.2.2.2.1,
    by simpa using h.2.2.2.2.1, by simpa using h.2.2.2.2.2⟩

theorem tick (h : StateInv s) (k : Nat) : StateInv (tick k s) :=
  ⟨h.1, h.2, h.3, fun ha => ⟨(h.4 ha).1, (h.4 ha).2.1, Nat.le_add_right_of_le (h.4 ha).2.2⟩,
    Nat.le_add_right_of_le h.5, h.6, h.7, h.8, h.9⟩

theorem setP (h : StateInv s) {p : Byte} (hp : unusedBit p = true) : StateInv (s.setP p) :=
  ⟨h.1, h.2, hp, h.4, h.5, h.6, h.7, h.8, h.9⟩

/-- The invariant does not speak of the other registers, the latches, the outputs and the free-value counter. -/
theorem congr_registers {t : State} (h : StateInv s)
    (e : t = { s with a := t.a, x := t.x, y := t.y, sp := t.sp, pc := t.pc, latches := t.latches,
                      pendingIrq := t.pendingIrq, out := t.out, draws := t.draws }) : StateInv t := by
  rw [e]
  exact ⟨h.1, h.2, h.3, h.4, h.5, h.6, h.7, h.8, h.9⟩

theorem push (h : StateInv s) (v : Byte) : StateInv (push v s) := (h.memWrite (stackAddr s.sp) v).congr_registers rfl

theorem push16 (h : StateInv s) (w : Addr) : StateInv (push16 w s) := (h.push _).push _

theorem pop (h : StateInv s) : StateInv (pop s).2 :=
  memRead (s := s.setSp (s.sp + 1)) (h.congr_registers rfl) _

theorem pop16 (h : StateInv s) : StateInv (pop16 s).2 := h.pop.pop

theorem read16 (h : StateInv s) (addr : Addr) : StateInv (read16 addr s).2 := (h.memRead _).memRead _

theorem fetch8 (h : StateInv s) : StateInv (fetch8 s).2 := (h.memRead s.pc).congr_registers rfl

theorem load (h : StateInv s) (o : Operand) : StateInv (load o s).2 := by
  cases o with
  | imm n => exact h
  | mem m =>
    rw [load_mem]
    exact h.memRead _

theorem store (h : StateInv s) (m : MemOperand) (v : Byte) : StateInv (store m v s) := by
  rw [store_eq]
  exact h.memWrite _ _

theorem modify (h : StateInv s) (m : MemOperand) {f : Byte → Byte → Byte × Byte}
    (hf : ∀ v p, unusedBit (f v p).2 = unusedBit p) : StateInv (modify m f s) := by
  rw [modify_eq]
  exact ((h.memRead _).memWrite _ _).setP (by rw [hf]; exact h.3)

theorem enterInterrupt (h : StateInv s) (ret : Addr) (st : Byte) {p' : Byte} (v : Addr) (hp : unusedBit p' = true) :
    StateInv (enterInterrupt ret st p' v s) :=
  ((((((h.push16 ret).push st).setP hp).read16 v).congr_registers rfl).tick 7)

theorem replayIrq (h : StateInv s) : StateInv (replayIrq s) := by
  unfold Machine.replayIrq
  split
  · exact h.congr_registers rfl
  · exact h

theorem returnFromInterrupt (h : StateInv s) : StateInv (returnFromInterrupt s) :=
  ((h.pop.setP (by simp)).pop16).congr_registers rfl

end StateInv

end Sys2Proof.Machine
end

