-- ==== Sys2Proof/Laws/Keyboard.lean ====
section
/-! SUPPORT. The map from keys to matrix cells, class of keys by class of keys. -/

namespace Sys2Proof.Machine

/-- A key of the matrix maps to its own cell, with no SHIFT implied. -/
theorem keyToMatrix_keyAt {r : Fin 8} {c : Fin 6} {k : Key} (h : keyAt r c = some k) :
    keyToMatrix k = some (r, c, false) := by
  have all : ∀ (r : Fin 8) (c : Fin 6),
      (match keyAt r c with | none => true | some k => keyToMatrix k == some (r, c, false)) = true := by decide
  have := all r c
  rw [h] at this
  simpa using this

/-- A character with an index among the symbols maps to the cell `KEYMAP` gives, with SHIFT. -/
theorem keyToMatrix_symbol {ch : Char} {i : Fin 15} (h : symbolKeys.findFinIdx? (· == ch) = some i) :
    keyToMatrix (.char ch) =
      (cellOf (.char (alphanumericKeys.getD (Config.keymap i).val 'A'))).map fun rc => (rc.1, rc.2, true) := by
  show (match symbolKeys.findFinIdx? (· == ch) with | some i => _ | none => _) = _
  rw [h]

/-- Every symbol key has an index. -/
theorem symbolKeys_index {ch : Char} (h : ch ∈ symbolKeys) : ∃ i : Fin 15, symbolKeys.findFinIdx? (· == ch) = some i := by
  simp only [symbolKeys, List.mem_cons, List.not_mem_nil, or_false] at h
  refine Option.isSome_iff_exists.1 ?_
  rcases h with rfl | rfl | rfl | rfl | rfl | rfl | rfl | rfl | rfl | rfl | rfl | rfl | rfl | rfl | rfl <;> decide

/-- Every letter and digit key has a cell of the matrix. -/
theorem alphanumericKeys_cell (i : Fin 36) :
    ∃ rc : Fin 8 × Fin 6, cellOf (.char (alphanumericKeys.getD i.val 'A')) = some rc ∧
      keyAt rc.1 rc.2 = some (.char (alphanumericKeys.getD i.val 'A')) := by
  refine ⟨(cellOf (.char (alphanumericKeys.getD i.val 'A'))).getD (0, 0), ?_⟩
  fin_cases i <;> decide

theorem alphanumericKeys_mem (i : Fin 36) : alphanumericKeys.getD i.val 'A' ∈ alphanumericKeys := by
  have h : i.val < alphanumericKeys.length := i.isLt
  rw [List.getD_eq_getElem?_getD, List.getElem?_eq_getElem h, Option.getD_some]
  exact List.getElem_mem h

end Sys2Proof.Machine
end

