-- ==== Sys2Proof/Laws/PerInstr.lean ====
section
/-! SUPPORT. The one family of statements made per constructor of `Instr`: how long an instruction is, by its mode, by
its opcode alone, and as encoded (30 R100, R101, R108). -/

namespace Sys2Proof.Laws.EncodedLength

/-- The encoding of a well-formed instruction is as long as its mode says, and its opcode byte alone tells the decoder
that length. -/
def Statement (i : Instr) : Prop :=
  WellFormed i → (encode i).length = i.length ∧ opcodeLength i.opcode = i.length

theorem ldaImm (n : Byte) : Statement (.ldaImm n) := fun _ => ⟨rfl, rfl⟩
theorem ldaZp (n : Byte) : Statement (.ldaZp n) := fun _ => ⟨rfl, rfl⟩
theorem ldaZpx (n : Byte) : Statement (.ldaZpx n) := fun _ => ⟨rfl, rfl⟩
theorem ldaAbs (w : Addr) : Statement (.ldaAbs w) := fun _ => ⟨rfl, rfl⟩
theorem ldaAbsx (w : Addr) : Statement (.ldaAbsx w) := fun _ => ⟨rfl, rfl⟩
theorem ldaAbsy (w : Addr) : Statement (.ldaAbsy w) := fun _ => ⟨rfl, rfl⟩
theorem ldaIzx (n : Byte) : Statement (.ldaIzx n) := fun _ => ⟨rfl, rfl⟩
theorem ldaIzy (n : Byte) : Statement (.ldaIzy n) := fun _ => ⟨rfl, rfl⟩
theorem ldaIzp (n : Byte) : Statement (.ldaIzp n) := fun _ => ⟨rfl, rfl⟩
theorem ldxImm (n : Byte) : Statement (.ldxImm n) := fun _ => ⟨rfl, rfl⟩
theorem ldxZp (n : Byte) : Statement (.ldxZp n) := fun _ => ⟨rfl, rfl⟩
theorem ldxZpy (n : Byte) : Statement (.ldxZpy n) := fun _ => ⟨rfl, rfl⟩
theorem ldxAbs (w : Addr) : Statement (.ldxAbs w) := fun _ => ⟨rfl, rfl⟩
theorem ldxAbsy (w : Addr) : Statement (.ldxAbsy w) := fun _ => ⟨rfl, rfl⟩
theorem ldyImm (n : Byte) : Statement (.ldyImm n) := fun _ => ⟨rfl, rfl⟩
theorem ldyZp (n : Byte) : Statement (.ldyZp n) := fun _ => ⟨rfl, rfl⟩
theorem ldyZpx (n : Byte) : Statement (.ldyZpx n) := fun _ => ⟨rfl, rfl⟩
theorem ldyAbs (w : Addr) : Statement (.ldyAbs w) := fun _ => ⟨rfl, rfl⟩
theorem ldyAbsx (w : Addr) : Statement (.ldyAbsx w) := fun _ => ⟨rfl, rfl⟩
theorem staZp (n : Byte) : Statement (.staZp n) := fun _ => ⟨rfl, rfl⟩
theorem staZpx (n : Byte) : Statement (.staZpx n) := fun _ => ⟨rfl, rfl⟩
theorem staAbs (w : Addr) : Statement (.staAbs w) := fun _ => ⟨rfl, rfl⟩
theorem staAbsx (w : Addr) : Statement (.staAbsx w) := fun _ => ⟨rfl, rfl⟩
theorem staAbsy (w : Addr) : Statement (.staAbsy w) := fun _ => ⟨rfl, rfl⟩
theorem staIzx (n : Byte) : Statement (.staIzx n) := fun _ => ⟨rfl, rfl⟩
theorem staIzy (n : Byte) : Statement (.staIzy n) := fun _ => ⟨rfl, rfl⟩
theorem staIzp (n : Byte) : Statement (.staIzp n) := fun _ => ⟨rfl, rfl⟩
theorem stxZp (n : Byte) : Statement (.stxZp n) := fun _ => ⟨rfl, rfl⟩
theorem stxZpy (n : Byte) : Statement (.stxZpy n) := fun _ => ⟨rfl, rfl⟩
theorem stxAbs (w : Addr) : Statement (.stxAbs w) := fun _ => ⟨rfl, rfl⟩
theorem styZp (n : Byte) : Statement (.styZp n) := fun _ => ⟨rfl, rfl⟩
theorem styZpx (n : Byte) : Statement (.styZpx n) := fun _ => ⟨rfl, rfl⟩
theorem styAbs (w : Addr) : Statement (.styAbs w) := fun _ => ⟨rfl, rfl⟩
theorem stzZp (n : Byte) : Statement (.stzZp n) := fun _ => ⟨rfl, rfl⟩
theorem stzZpx (n : Byte) : Statement (.stzZpx n) := fun _ => ⟨rfl, rfl⟩
theorem stzAbs (w : Addr) : Statement (.stzAbs w) := fun _ => ⟨rfl, rfl⟩
theorem stzAbsx (w : Addr) : Statement (.stzAbsx w) := fun _ => ⟨rfl, rfl⟩
theorem tax : Statement .tax := fun _ => ⟨rfl, rfl⟩
theorem tay : Statement .tay := fun _ => ⟨rfl, rfl⟩
theorem txa : Statement .txa := fun _ => ⟨rfl, rfl⟩
theorem tya : Statement .tya := fun _ => ⟨rfl, rfl⟩
theorem tsx : Statement .tsx := fun _ => ⟨rfl, rfl⟩
theorem txs : Statement .txs := fun _ => ⟨rfl, rfl⟩
theorem adcImm (n : Byte) : Statement (.adcImm n) := fun _ => ⟨rfl, rfl⟩
theorem adcZp (n : Byte) : Statement (.adcZp n) := fun _ => ⟨rfl, rfl⟩
theorem adcZpx (n : Byte) : Statement (.adcZpx n) := fun _ => ⟨rfl, rfl⟩
theorem adcAbs (w : Addr) : Statement (.adcAbs w) := fun _ => ⟨rfl, rfl⟩
theorem adcAbsx (w : Addr) : Statement (.adcAbsx w) := fun _ => ⟨rfl, rfl⟩
theorem adcAbsy (w : Addr) : Statement (.adcAbsy w) := fun _ => ⟨rfl, rfl⟩
theorem adcIzx (n : Byte) : Statement (.adcIzx n) := fun _ => ⟨rfl, rfl⟩
theorem adcIzy (n : Byte) : Statement (.adcIzy n) := fun _ => ⟨rfl, rfl⟩
theorem adcIzp (n : Byte) : Statement (.adcIzp n) := fun _ => ⟨rfl, rfl⟩
theorem sbcImm (n : Byte) : Statement (.sbcImm n) := fun _ => ⟨rfl, rfl⟩
theorem sbcZp (n : Byte) : Statement (.sbcZp n) := fun _ => ⟨rfl, rfl⟩
theorem sbcZpx (n : Byte) : Statement (.sbcZpx n) := fun _ => ⟨rfl, rfl⟩
theorem sbcAbs (w : Addr) : Statement (.sbcAbs w) := fun _ => ⟨rfl, rfl⟩
theorem sbcAbsx (w : Addr) : Statement (.sbcAbsx w) := fun _ => ⟨rfl, rfl⟩
theorem sbcAbsy (w : Addr) : Statement (.sbcAbsy w) := fun _ => ⟨rfl, rfl⟩
theorem sbcIzx (n : Byte) : Statement (.sbcIzx n) := fun _ => ⟨rfl, rfl⟩
theorem sbcIzy (n : Byte) : Statement (.sbcIzy n) := fun _ => ⟨rfl, rfl⟩
theorem sbcIzp (n : Byte) : Statement (.sbcIzp n) := fun _ => ⟨rfl, rfl⟩
theorem cmpImm (n : Byte) : Statement (.cmpImm n) := fun _ => ⟨rfl, rfl⟩
theorem cmpZp (n : Byte) : Statement (.cmpZp n) := fun _ => ⟨rfl, rfl⟩
theorem cmpZpx (n : Byte) : Statement (.cmpZpx n) := fun _ => ⟨rfl, rfl⟩
theorem cmpAbs (w : Addr) : Statement (.cmpAbs w) := fun _ => ⟨rfl, rfl⟩
theorem cmpAbsx (w : Addr) : Statement (.cmpAbsx w) := fun _ => ⟨rfl, rfl⟩
theorem cmpAbsy (w : Addr) : Statement (.cmpAbsy w) := fun _ => ⟨rfl, rfl⟩
theorem cmpIzx (n : Byte) : Statement (.cmpIzx n) := fun _ => ⟨rfl, rfl⟩
theorem cmpIzy (n : Byte) : Statement (.cmpIzy n) := fun _ => ⟨rfl, rfl⟩
theorem cmpIzp (n : Byte) : Statement (.cmpIzp n) := fun _ => ⟨rfl, rfl⟩
theorem cpxImm (n : Byte) : Statement (.cpxImm n) := fun _ => ⟨rfl, rfl⟩
theorem cpxZp (n : Byte) : Statement (.cpxZp n) := fun _ => ⟨rfl, rfl⟩
theorem cpxAbs (w : Addr) : Statement (.cpxAbs w) := fun _ => ⟨rfl, rfl⟩
theorem cpyImm (n : Byte) : Statement (.cpyImm n) := fun _ => ⟨rfl, rfl⟩
theorem cpyZp (n : Byte) : Statement (.cpyZp n) := fun _ => ⟨rfl, rfl⟩
theorem cpyAbs (w : Addr) : Statement (.cpyAbs w) := fun _ => ⟨rfl, rfl⟩
theorem incZp (n : Byte) : Statement (.incZp n) := fun _ => ⟨rfl, rfl⟩
theorem incZpx (n : Byte) : Statement (.incZpx n) := fun _ => ⟨rfl, rfl⟩
theorem incAbs (w : Addr) : Statement (.incAbs w) := fun _ => ⟨rfl, rfl⟩
theorem incAbsx (w : Addr) : Statement (.incAbsx w) := fun _ => ⟨rfl, rfl⟩
theorem decZp (n : Byte) : Statement (.decZp n) := fun _ => ⟨rfl, rfl⟩
theorem decZpx (n : Byte) : Statement (.decZpx n) := fun _ => ⟨rfl, rfl⟩
theorem decAbs (w : Addr) : Statement (.decAbs w) := fun _ => ⟨rfl, rfl⟩
theorem decAbsx (w : Addr) : Statement (.decAbsx w) := fun _ => ⟨rfl, rfl⟩
theorem inx : Statement .inx := fun _ => ⟨rfl, rfl⟩
theorem iny : Statement .iny := fun _ => ⟨rfl, rfl⟩
theorem dex : Statement .dex := fun _ => ⟨rfl, rfl⟩
theorem dey : Statement .dey := fun _ => ⟨rfl, rfl⟩
theorem ina : Statement .ina := fun _ => ⟨rfl, rfl⟩
theorem dea : Statement .dea := fun _ => ⟨rfl, rfl⟩
theorem andImm (n : Byte) : Statement (.andImm n) := fun _ => ⟨rfl, rfl⟩
theorem andZp (n : Byte) : Statement (.andZp n) := fun _ => ⟨rfl, rfl⟩
theorem andZpx (n : Byte) : Statement (.andZpx n) := fun _ => ⟨rfl, rfl⟩
theorem andAbs (w : Addr) : Statement (.andAbs w) := fun _ => ⟨rfl, rfl⟩
theorem andAbsx (w : Addr) : Statement (.andAbsx w) := fun _ => ⟨rfl, rfl⟩
theorem andAbsy (w : Addr) : Statement (.andAbsy w) := fun _ => ⟨rfl, rfl⟩
theorem andIzx (n : Byte) : Statement (.andIzx n) := fun _ => ⟨rfl, rfl⟩
theorem andIzy (n : Byte) : Statement (.andIzy n) := fun _ => ⟨rfl, rfl⟩
theorem andIzp (n : Byte) : Statement (.andIzp n) := fun _ => ⟨rfl, rfl⟩
theorem oraImm (n : Byte) : Statement (.oraImm n) := fun _ => ⟨rfl, rfl⟩
theorem oraZp (n : Byte) : Statement (.oraZp n) := fun _ => ⟨rfl, rfl⟩
theorem oraZpx (n : Byte) : Statement (.oraZpx n) := fun _ => ⟨rfl, rfl⟩
theorem oraAbs (w : Addr) : Statement (.oraAbs w) := fun _ => ⟨rfl, rfl⟩
theorem oraAbsx (w : Addr) : Statement (.oraAbsx w) := fun _ => ⟨rfl, rfl⟩
theorem oraAbsy (w : Addr) : Statement (.oraAbsy w) := fun _ => ⟨rfl, rfl⟩
theorem oraIzx (n : Byte) : Statement (.oraIzx n) := fun _ => ⟨rfl, rfl⟩
theorem oraIzy (n : Byte) : Statement (.oraIzy n) := fun _ => ⟨rfl, rfl⟩
theorem oraIzp (n : Byte) : Statement (.oraIzp n) := fun _ => ⟨rfl, rfl⟩
theorem eorImm (n : Byte) : Statement (.eorImm n) := fun _ => ⟨rfl, rfl⟩
theorem eorZp (n : Byte) : Statement (.eorZp n) := fun _ => ⟨rfl, rfl⟩
theorem eorZpx (n : Byte) : Statement (.eorZpx n) := fun _ => ⟨rfl, rfl⟩
theorem eorAbs (w : Addr) : Statement (.eorAbs w) := fun _ => ⟨rfl, rfl⟩
theorem eorAbsx (w : Addr) : Statement (.eorAbsx w) := fun _ => ⟨rfl, rfl⟩
theorem eorAbsy (w : Addr) : Statement (.eorAbsy w) := fun _ => ⟨rfl, rfl⟩
theorem eorIzx (n : Byte) : Statement (.eorIzx n) := fun _ => ⟨rfl, rfl⟩
theorem eorIzy (n : Byte) : Statement (.eorIzy n) := fun _ => ⟨rfl, rfl⟩
theorem eorIzp (n : Byte) : Statement (.eorIzp n) := fun _ => ⟨rfl, rfl⟩
theorem bitImm (n : Byte) : Statement (.bitImm n) := fun _ => ⟨rfl, rfl⟩
theorem bitZp (n : Byte) : Statement (.bitZp n) := fun _ => ⟨rfl, rfl⟩
theorem bitZpx (n : Byte) : Statement (.bitZpx n) := fun _ => ⟨rfl, rfl⟩
theorem bitAbs (w : Addr) : Statement (.bitAbs w) := fun _ => ⟨rfl, rfl⟩
theorem bitAbsx (w : Addr) : Statement (.bitAbsx w) := fun _ => ⟨rfl, rfl⟩
theorem trbZp (n : Byte) : Statement (.trbZp n) := fun _ => ⟨rfl, rfl⟩
theorem trbAbs (w : Addr) : Statement (.trbAbs w) := fun _ => ⟨rfl, rfl⟩
theorem tsbZp (n : Byte) : Statement (.tsbZp n) := fun _ => ⟨rfl, rfl⟩
theorem tsbAbs (w : Addr) : Statement (.tsbAbs w) := fun _ => ⟨rfl, rfl⟩
theorem aslAcc : Statement .aslAcc := fun _ => ⟨rfl, rfl⟩
theorem aslZp (n : Byte) : Statement (.aslZp n) := fun _ => ⟨rfl, rfl⟩
theorem aslZpx (n : Byte) : Statement (.aslZpx n) := fun _ => ⟨rfl, rfl⟩
theorem aslAbs (w : Addr) : Statement (.aslAbs w) := fun _ => ⟨rfl, rfl⟩
theorem aslAbsx (w : Addr) : Statement (.aslAbsx w) := fun _ => ⟨rfl, rfl⟩
theorem lsrAcc : Statement .lsrAcc := fun _ => ⟨rfl, rfl⟩
theorem lsrZp (n : Byte) : Statement (.lsrZp n) := fun _ => ⟨rfl, rfl⟩
theorem lsrZpx (n : Byte) : Statement (.lsrZpx n) := fun _ => ⟨rfl, rfl⟩
theorem lsrAbs (w : Addr) : Statement (.lsrAbs w) := fun _ => ⟨rfl, rfl⟩
theorem lsrAbsx (w : Addr) : Statement (.lsrAbsx w) := fun _ => ⟨rfl, rfl⟩
theorem rolAcc : Statement .rolAcc := fun _ => ⟨rfl, rfl⟩
theorem rolZp (n : Byte) : Statement (.rolZp n) := fun _ => ⟨rfl, rfl⟩
theorem rolZpx (n : Byte) : Statement (.rolZpx n) := fun _ => ⟨rfl, rfl⟩
theorem rolAbs (w : Addr) : Statement (.rolAbs w) := fun _ => ⟨rfl, rfl⟩
theorem rolAbsx (w : Addr) : Statement (.rolAbsx w) := fun _ => ⟨rfl, rfl⟩
theorem rorAcc : Statement .rorAcc := fun _ => ⟨rfl, rfl⟩
theorem rorZp (n : Byte) : Statement (.rorZp n) := fun _ => ⟨rfl, rfl⟩
theorem rorZpx (n : Byte) : Statement (.rorZpx n) := fun _ => ⟨rfl, rfl⟩
theorem rorAbs (w : Addr) : Statement (.rorAbs w) := fun _ => ⟨rfl, rfl⟩
theorem rorAbsx (w : Addr) : Statement (.rorAbsx w) := fun _ => ⟨rfl, rfl⟩
theorem jmpAbs (w : Addr) : Statement (.jmpAbs w) := fun _ => ⟨rfl, rfl⟩
theorem jmpInd (w : Addr) : Statement (.jmpInd w) := fun _ => ⟨rfl, rfl⟩
theorem jmpIax (w : Addr) : Statement (.jmpIax w) := fun _ => ⟨rfl, rfl⟩
theorem jsr (w : Addr) : Statement (.jsr w) := fun _ => ⟨rfl, rfl⟩
theorem rts : Statement .rts := fun _ => ⟨rfl, rfl⟩
theorem bcc (n : Byte) : Statement (.bcc n) := fun _ => ⟨rfl, rfl⟩
theorem bcs (n : Byte) : Statement (.bcs n) := fun _ => ⟨rfl, rfl⟩
theorem beq (n : Byte) : Statement (.beq n) := fun _ => ⟨rfl, rfl⟩
theorem bne (n : Byte) : Statement (.bne n) := fun _ => ⟨rfl, rfl⟩
theorem bmi (n : Byte) : Statement (.bmi n) := fun _ => ⟨rfl, rfl⟩
theorem bpl (n : Byte) : Statement (.bpl n) := fun _ => ⟨rfl, rfl⟩
theorem bvc (n : Byte) : Statement (.bvc n) := fun _ => ⟨rfl, rfl⟩
theorem bvs (n : Byte) : Statement (.bvs n) := fun _ => ⟨rfl, rfl⟩
theorem bra (n : Byte) : Statement (.bra n) := fun _ => ⟨rfl, rfl⟩
theorem pha : Statement .pha := fun _ => ⟨rfl, rfl⟩
theorem pla : Statement .pla := fun _ => ⟨rfl, rfl⟩
theorem phx : Statement .phx := fun _ => ⟨rfl, rfl⟩
theorem plx : Statement .plx := fun _ => ⟨rfl, rfl⟩
theorem phy : Statement .phy := fun _ => ⟨rfl, rfl⟩
theorem ply : Statement .ply := fun _ => ⟨rfl, rfl⟩
theorem php : Statement .php := fun _ => ⟨rfl, rfl⟩
theorem plp : Statement .plp := fun _ => ⟨rfl, rfl⟩
theorem clc : Statement .clc := fun _ => ⟨rfl, rfl⟩
theorem sec : Statement .sec := fun _ => ⟨rfl, rfl⟩
theorem cli : Statement .cli := fun _ => ⟨rfl, rfl⟩
theorem sei : Statement .sei := fun _ => ⟨rfl, rfl⟩
theorem cld : Statement .cld := fun _ => ⟨rfl, rfl⟩
theorem sed : Statement .sed := fun _ => ⟨rfl, rfl⟩
theorem clv : Statement .clv := fun _ => ⟨rfl, rfl⟩
theorem nop : Statement .nop := fun _ => ⟨rfl, rfl⟩
theorem brk : Statement .brk := fun _ => ⟨rfl, rfl⟩
theorem rti : Statement .rti := fun _ => ⟨rfl, rfl⟩

/-- The decoder reads each of the 78 unknown opcode bytes as one byte (30 R106; D8). -/
theorem opcodeLength_unknown {op : Byte} (h : op ∈ unknownOpcodes) : opcodeLength op = 1 := by
  have all : unknownOpcodes.all (fun b => opcodeLength b == 1) = true := by decide
  simpa using List.all_eq_true.1 all op h

theorem unknown (op : Byte) : Statement (.unknown op) := fun h =>
  ⟨rfl, opcodeLength_unknown (List.contains_iff_mem.1 h)⟩

end Sys2Proof.Laws.EncodedLength
end

