-- ==== Sys2Proof/Laws/Video.lean ====
section
/-! SUPPORT. The framebuffer: the pixels of a scanline one by one, and what drawing a row or a scanline leaves,
and that it keeps the framebuffer's form. -/

namespace Sys2Proof.Machine

/-- Pixel `j` of a scanline, one of its 560. -/
theorem rasterLine_getElem? (mode : ColorMode) (line : List Byte) {j : Nat} (h : j < 560) :
    (rasterLine mode line)[j]? = some (linePixel mode line j) := by
  simp [rasterLine, h]

/-- Pixel `j` of the 14 of byte `k`. -/
theorem linePixel_cell (mode : ColorMode) (line : List Byte) (k : Nat) {j : Nat} (h : j < 14) :
    linePixel mode line (14 * k + j) = (cellsAt mode line k)[j] := by
  have hd : (14 * k + j) / 14 = k := by omega
  have hm : (14 * k + j) % 14 = j := by omega
  simp only [linePixel, hd, hm]

/-- A pixel of a byte in MONO mode is the colour of its column bit. -/
@[simp] theorem cellsAt_mono (line : List Byte) (k j : Nat) (h : j < 14) :
    (cellsAt .mono line k)[j] = monoPixel ((line.getD k 0x00).getLsbD (j / 2)) := by
  simp [cellsAt, byteCells]

/-- A pixel of a byte in COLOR mode is the palette entry that the byte and its neighbours' column bits give. -/
theorem cellsAt_color (line : List Byte) (k j : Nat) (h : j < 14) :
    (cellsAt .color line k)[j] = paletteEntry colorPalette (colorIndex (line.getD k 0x00)
      ((if k = 0 then 0x00 else line.getD (k - 1) 0x00).extractLsb' 5 2)
      ((if k = 39 then 0x00 else line.getD (k + 1) 0x00).extractLsb' 0 2) j).val := by
  simp [cellsAt, byteCells]

/-- A drawn row holds its pixels, and every other row is as before. -/
@[simp] theorem Framebuffer.pixel_draw (r q : Fin 384) (c : Fin 560) (pixels : PixelRow) (fb : Framebuffer) :
    (fb.draw r pixels).pixel q c = if q = r then pixels[c] else fb.pixel q c := by
  induction fb with
  | nil => simp only [Framebuffer.draw, Framebuffer.pixel, eq_comm]
  | cons d rest ih =>
    simp only [Framebuffer.draw]
    by_cases hq : q = r
    · subst hq
      by_cases h1 : q < d.row
      · simp [h1, Framebuffer.pixel]
      · by_cases h2 : q = d.row
        · simp [← h2, Framebuffer.pixel]
        · simp [h1, h2, Ne.symm h2, Framebuffer.pixel, ih]
    · by_cases h1 : r < d.row
      · simp [h1, hq, Ne.symm hq, Framebuffer.pixel]
      · by_cases h2 : r = d.row
        · simp [← h2, hq, Ne.symm hq, Framebuffer.pixel]
        · simp [h1, h2, hq, Framebuffer.pixel, ih]

/-- Every row of a framebuffer after a draw is the drawn one or was there before. -/
theorem Framebuffer.mem_draw {r : Fin 384} {pixels : PixelRow} {fb : Framebuffer} {d : DrawnRow}
    (h : d ∈ fb.draw r pixels) : d.row = r ∨ d ∈ fb := by
  induction fb with
  | nil =>
    simp only [Framebuffer.draw, List.mem_singleton] at h
    exact .inl (by rw [h])
  | cons e rest ih =>
    simp only [Framebuffer.draw] at h
    split at h
    · rcases List.mem_cons.1 h with h | h
      · exact .inl (by rw [h])
      · exact .inr h
    · split at h
      · rcases List.mem_cons.1 h with h | h
        · exact .inl (by rw [h])
        · exact .inr (List.mem_cons_of_mem _ h)
      · rcases List.mem_cons.1 h with h | h
        · exact .inr (by simp [h])
        · exact (ih h).imp id (List.mem_cons_of_mem _)

/-- Drawing keeps the one form of a framebuffer. -/
theorem Framebuffer.draw_wf {fb : Framebuffer} (h : fb.wf) (r : Fin 384) (pixels : PixelRow) : (fb.draw r pixels).wf := by
  induction fb with
  | nil => simp [Framebuffer.draw, Framebuffer.wf]
  | cons d rest ih =>
    have hc := List.pairwise_cons.1 h
    simp only [Framebuffer.draw]
    split
    · rename_i hr
      refine List.pairwise_cons.2 ⟨fun e he => ?_, h⟩
      rcases List.mem_cons.1 he with rfl | he
      · exact hr
      · exact lt_trans hr (hc.1 e he)
    · rename_i hr
      split
      · rename_i he
        subst he
        exact List.pairwise_cons.2 ⟨hc.1, hc.2⟩
      · rename_i hne
        refine List.pairwise_cons.2 ⟨fun e he => ?_, ih hc.2⟩
        rcases Framebuffer.mem_draw he with h1 | h1
        · rw [h1]
          exact lt_of_le_of_ne (not_lt.1 hr) (Ne.symm hne)
        · exact hc.1 e h1

theorem setFbRow_wf {fb : Framebuffer} (h : fb.wf) (r : Nat) (pixels : PixelRow) : (setFbRow fb r pixels).wf := by
  unfold setFbRow
  split
  · exact Framebuffer.draw_wf h _ _
  · exact h

theorem drawScanline_wf {fb : Framebuffer} (h : fb.wf) (y : Nat) (pixels : PixelRow) : (drawScanline fb y pixels).wf :=
  setFbRow_wf (setFbRow_wf h _ _) _ _

/-- A drawn scanline is in both of its rows, and every other row is as before. -/
theorem drawScanline_pixel (fb : Framebuffer) {y : Nat} (h : y < 192) (pixels : PixelRow) (r : Fin 384) (c : Fin 560) :
    (drawScanline fb y pixels).pixel r c = if r.val / 2 = y then pixels[c] else fb.pixel r c := by
  have h1 : 2 * y < 384 := by omega
  have h2 : 2 * y + 1 < 384 := by omega
  simp only [drawScanline, setFbRow, h1, h2, dite_true, Framebuffer.pixel_draw, Fin.ext_iff]
  by_cases e1 : r.val = 2 * y + 1
  · simp [e1, show (2 * y + 1) / 2 = y by omega]
  · by_cases e2 : r.val = 2 * y
    · simp [e2]
    · simp [e1, e2, show r.val / 2 ≠ y by omega]

end Sys2Proof.Machine
end

