-- ==== Sys2Proof/Tests/Slice0.lean ====
section
/-! SUPPORT. Small tests: what WellFormed refuses, the decoding of every opcode byte from the table of the spec, the
one-step vectors of spec 95, the device vectors, and, for every obligation with hypotheses, a concrete state and
operands that meet them. Every expected value is the spec's (the section is named in the docstring), not the model's. -/

namespace Sys2Proof.Tests

open Sys2Proof.Machine

/-- Bytes placed at their addresses of the program's memory. -/
def poke (cells : List (Addr × Byte)) (s : State) : State := cells.foldl (fun t c => placeByte c.1 c.2 t) s

/-- The start state of 95 parts 2 and 3: an instruction at `pc`, which is in RAM, and bytes at addresses. -/
def boot (pc : Addr) (bytes : List Byte) (cells : List (Addr × Byte)) : State :=
  poke cells (placeBytes pc bytes (State.reset.setPc pc))

/-- The same in BANK_RAM mode. -/
def bootRam (pc : Addr) (bytes : List Byte) (cells : List (Addr × Byte)) : State :=
  poke cells (placeBytes pc bytes ((State.reset.setPc pc).setBankMode .ram))

/-- One step of `s` answers a next state of which `check` holds. -/
abbrev stepGives (s : State) (check : State → Bool) : Prop :=
  (match step s with | .next t => check t | .fault _ => false | .refused _ => false) = true

/-- Each byte string decodes to its instruction with nothing left, and is that instruction's encoding. -/
abbrev decodesTo (rows : List (List Byte × Instr)) : Prop :=
  rows.all (fun r => (decode r.1).toOption == some (r.2, []) && encode r.2 == r.1) = true

/-- What a bus read of `addr` returns. -/
def readOf (addr : Addr) (s : State) : Byte := (memRead addr s).1

/-- The state after a bus read of `addr`. -/
def afterRead (addr : Addr) (s : State) : State := (memRead addr s).2

/-! ## WellFormed -/

/-- `unknown` of a byte that is a defined opcode is ill-formed: the first, a middle and the last defined opcode. -/
theorem test_wellFormed_refuses :
    ¬ WellFormed (.unknown 0x00) ∧ ¬ WellFormed (.unknown 0xA9) ∧ ¬ WellFormed (.unknown 0xFE) := by decide

theorem test_wellFormed_accepts :
    WellFormed (.unknown 0x02) ∧ WellFormed (.unknown 0xFF) ∧ WellFormed (.ldaImm 0xFF) ∧ WellFormed (.jmpAbs 0xFFFF) := by
  decide

/-! ## Decode: the opcode bytes of 30 R104 and R105, operand 0x9A or 0x1234 (low byte first) -/

theorem test_decode_loads :
    decodesTo [([0xA9, 0x9A], .ldaImm 0x9A), ([0xA5, 0x9A], .ldaZp 0x9A), ([0xB5, 0x9A], .ldaZpx 0x9A)] ∧
    decodesTo [([0xAD, 0x34, 0x12], .ldaAbs 0x1234), ([0xBD, 0x34, 0x12], .ldaAbsx 0x1234)] ∧
    decodesTo [([0xB9, 0x34, 0x12], .ldaAbsy 0x1234), ([0xA1, 0x9A], .ldaIzx 0x9A), ([0xB1, 0x9A], .ldaIzy 0x9A)] ∧
    decodesTo [([0xB2, 0x9A], .ldaIzp 0x9A), ([0xA2, 0x9A], .ldxImm 0x9A), ([0xA6, 0x9A], .ldxZp 0x9A)] ∧
    decodesTo [([0xB6, 0x9A], .ldxZpy 0x9A), ([0xAE, 0x34, 0x12], .ldxAbs 0x1234), ([0xBE, 0x34, 0x12], .ldxAbsy 0x1234)] ∧
    decodesTo [([0xA0, 0x9A], .ldyImm 0x9A), ([0xA4, 0x9A], .ldyZp 0x9A), ([0xB4, 0x9A], .ldyZpx 0x9A)] ∧
    decodesTo [([0xAC, 0x34, 0x12], .ldyAbs 0x1234), ([0xBC, 0x34, 0x12], .ldyAbsx 0x1234)] := by decide

theorem test_decode_stores :
    decodesTo [([0x85, 0x9A], .staZp 0x9A), ([0x95, 0x9A], .staZpx 0x9A), ([0x8D, 0x34, 0x12], .staAbs 0x1234)] ∧
    decodesTo [([0x9D, 0x34, 0x12], .staAbsx 0x1234), ([0x99, 0x34, 0x12], .staAbsy 0x1234), ([0x81, 0x9A], .staIzx 0x9A)] ∧
    decodesTo [([0x91, 0x9A], .staIzy 0x9A), ([0x92, 0x9A], .staIzp 0x9A), ([0x86, 0x9A], .stxZp 0x9A)] ∧
    decodesTo [([0x96, 0x9A], .stxZpy 0x9A), ([0x8E, 0x34, 0x12], .stxAbs 0x1234), ([0x84, 0x9A], .styZp 0x9A)] ∧
    decodesTo [([0x94, 0x9A], .styZpx 0x9A), ([0x8C, 0x34, 0x12], .styAbs 0x1234), ([0x64, 0x9A], .stzZp 0x9A)] ∧
    decodesTo [([0x74, 0x9A], .stzZpx 0x9A), ([0x9C, 0x34, 0x12], .stzAbs 0x1234), ([0x9E, 0x34, 0x12], .stzAbsx 0x1234)] := by decide

theorem test_decode_transfers :
    decodesTo [([0xAA], .tax), ([0xA8], .tay), ([0x8A], .txa), ([0x98], .tya), ([0xBA], .tsx), ([0x9A], .txs)] := by decide

theorem test_decode_add_subtract :
    decodesTo [([0x69, 0x9A], .adcImm 0x9A), ([0x65, 0x9A], .adcZp 0x9A), ([0x75, 0x9A], .adcZpx 0x9A)] ∧
    decodesTo [([0x6D, 0x34, 0x12], .adcAbs 0x1234), ([0x7D, 0x34, 0x12], .adcAbsx 0x1234)] ∧
    decodesTo [([0x79, 0x34, 0x12], .adcAbsy 0x1234), ([0x61, 0x9A], .adcIzx 0x9A), ([0x71, 0x9A], .adcIzy 0x9A)] ∧
    decodesTo [([0x72, 0x9A], .adcIzp 0x9A), ([0xE9, 0x9A], .sbcImm 0x9A), ([0xE5, 0x9A], .sbcZp 0x9A)] ∧
    decodesTo [([0xF5, 0x9A], .sbcZpx 0x9A), ([0xED, 0x34, 0x12], .sbcAbs 0x1234), ([0xFD, 0x34, 0x12], .sbcAbsx 0x1234)] ∧
    decodesTo [([0xF9, 0x34, 0x12], .sbcAbsy 0x1234), ([0xE1, 0x9A], .sbcIzx 0x9A), ([0xF1, 0x9A], .sbcIzy 0x9A)] ∧
    decodesTo [([0xF2, 0x9A], .sbcIzp 0x9A)] := by decide

theorem test_decode_compares :
    decodesTo [([0xC9, 0x9A], .cmpImm 0x9A), ([0xC5, 0x9A], .cmpZp 0x9A), ([0xD5, 0x9A], .cmpZpx 0x9A)] ∧
    decodesTo [([0xCD, 0x34, 0x12], .cmpAbs 0x1234), ([0xDD, 0x34, 0x12], .cmpAbsx 0x1234)] ∧
    decodesTo [([0xD9, 0x34, 0x12], .cmpAbsy 0x1234), ([0xC1, 0x9A], .cmpIzx 0x9A), ([0xD1, 0x9A], .cmpIzy 0x9A)] ∧
    decodesTo [([0xD2, 0x9A], .cmpIzp 0x9A), ([0xE0, 0x9A], .cpxImm 0x9A), ([0xE4, 0x9A], .cpxZp 0x9A)] ∧
    decodesTo [([0xEC, 0x34, 0x12], .cpxAbs 0x1234), ([0xC0, 0x9A], .cpyImm 0x9A), ([0xC4, 0x9A], .cpyZp 0x9A)] ∧
    decodesTo [([0xCC, 0x34, 0x12], .cpyAbs 0x1234)] := by decide

theorem test_decode_increments :
    decodesTo [([0xE6, 0x9A], .incZp 0x9A), ([0xF6, 0x9A], .incZpx 0x9A), ([0xEE, 0x34, 0x12], .incAbs 0x1234)] ∧
    decodesTo [([0xFE, 0x34, 0x12], .incAbsx 0x1234), ([0xC6, 0x9A], .decZp 0x9A), ([0xD6, 0x9A], .decZpx 0x9A)] ∧
    decodesTo [([0xCE, 0x34, 0x12], .decAbs 0x1234), ([0xDE, 0x34, 0x12], .decAbsx 0x1234), ([0xE8], .inx), ([0xC8], .iny)] ∧
    decodesTo [([0xCA], .dex), ([0x88], .dey), ([0x1A], .ina), ([0x3A], .dea)] := by decide

theorem test_decode_logic :
    decodesTo [([0x29, 0x9A], .andImm 0x9A), ([0x25, 0x9A], .andZp 0x9A), ([0x35, 0x9A], .andZpx 0x9A)] ∧
    decodesTo [([0x2D, 0x34, 0x12], .andAbs 0x1234), ([0x3D, 0x34, 0x12], .andAbsx 0x1234)] ∧
    decodesTo [([0x39, 0x34, 0x12], .andAbsy 0x1234), ([0x21, 0x9A], .andIzx 0x9A), ([0x31, 0x9A], .andIzy 0x9A)] ∧
    decodesTo [([0x32, 0x9A], .andIzp 0x9A), ([0x09, 0x9A], .oraImm 0x9A), ([0x05, 0x9A], .oraZp 0x9A)] ∧
    decodesTo [([0x15, 0x9A], .oraZpx 0x9A), ([0x0D, 0x34, 0x12], .oraAbs 0x1234), ([0x1D, 0x34, 0x12], .oraAbsx 0x1234)] ∧
    decodesTo [([0x19, 0x34, 0x12], .oraAbsy 0x1234), ([0x01, 0x9A], .oraIzx 0x9A), ([0x11, 0x9A], .oraIzy 0x9A)] ∧
    decodesTo [([0x12, 0x9A], .oraIzp 0x9A), ([0x49, 0x9A], .eorImm 0x9A), ([0x45, 0x9A], .eorZp 0x9A)] ∧
    decodesTo [([0x55, 0x9A], .eorZpx 0x9A), ([0x4D, 0x34, 0x12], .eorAbs 0x1234), ([0x5D, 0x34, 0x12], .eorAbsx 0x1234)] ∧
    decodesTo [([0x59, 0x34, 0x12], .eorAbsy 0x1234), ([0x41, 0x9A], .eorIzx 0x9A), ([0x51, 0x9A], .eorIzy 0x9A)] ∧
    decodesTo [([0x52, 0x9A], .eorIzp 0x9A)] := by decide

theorem test_decode_bit_tests :
    decodesTo [([0x89, 0x9A], .bitImm 0x9A), ([0x24, 0x9A], .bitZp 0x9A), ([0x34, 0x9A], .bitZpx 0x9A)] ∧
    decodesTo [([0x2C, 0x34, 0x12], .bitAbs 0x1234), ([0x3C, 0x34, 0x12], .bitAbsx 0x1234), ([0x14, 0x9A], .trbZp 0x9A)] ∧
    decodesTo [([0x1C, 0x34, 0x12], .trbAbs 0x1234), ([0x04, 0x9A], .tsbZp 0x9A), ([0x0C, 0x34, 0x12], .tsbAbs 0x1234)] := by decide

theorem test_decode_shifts :
    decodesTo [([0x0A], .aslAcc), ([0x06, 0x9A], .aslZp 0x9A), ([0x16, 0x9A], .aslZpx 0x9A)] ∧
    decodesTo [([0x0E, 0x34, 0x12], .aslAbs 0x1234), ([0x1E, 0x34, 0x12], .aslAbsx 0x1234), ([0x4A], .lsrAcc)] ∧
    decodesTo [([0x46, 0x9A], .lsrZp 0x9A), ([0x56, 0x9A], .lsrZpx 0x9A), ([0x4E, 0x34, 0x12], .lsrAbs 0x1234)] ∧
    decodesTo [([0x5E, 0x34, 0x12], .lsrAbsx 0x1234), ([0x2A], .rolAcc), ([0x26, 0x9A], .rolZp 0x9A)] ∧
    decodesTo [([0x36, 0x9A], .rolZpx 0x9A), ([0x2E, 0x34, 0x12], .rolAbs 0x1234), ([0x3E, 0x34, 0x12], .rolAbsx 0x1234)] ∧
    decodesTo [([0x6A], .rorAcc), ([0x66, 0x9A], .rorZp 0x9A), ([0x76, 0x9A], .rorZpx 0x9A)] ∧
    decodesTo [([0x6E, 0x34, 0x12], .rorAbs 0x1234), ([0x7E, 0x34, 0x12], .rorAbsx 0x1234)] := by decide

theorem test_decode_control_flow :
    decodesTo [([0x4C, 0x34, 0x12], .jmpAbs 0x1234), ([0x6C, 0x34, 0x12], .jmpInd 0x1234)] ∧
    decodesTo [([0x7C, 0x34, 0x12], .jmpIax 0x1234), ([0x20, 0x34, 0x12], .jsr 0x1234), ([0x60], .rts)] ∧
    decodesTo [([0x90, 0x9A], .bcc 0x9A), ([0xB0, 0x9A], .bcs 0x9A), ([0xF0, 0x9A], .beq 0x9A), ([0xD0, 0x9A], .bne 0x9A)] ∧
    decodesTo [([0x30, 0x9A], .bmi 0x9A), ([0x10, 0x9A], .bpl 0x9A), ([0x50, 0x9A], .bvc 0x9A), ([0x70, 0x9A], .bvs 0x9A)] ∧
    decodesTo [([0x80, 0x9A], .bra 0x9A)] := by decide

theorem test_decode_stack :
    decodesTo [([0x48], .pha), ([0x68], .pla), ([0xDA], .phx), ([0xFA], .plx), ([0x5A], .phy), ([0x7A], .ply)] ∧
    decodesTo [([0x08], .php), ([0x28], .plp)] := by decide

theorem test_decode_flags_system :
    decodesTo [([0x18], .clc), ([0x38], .sec), ([0x58], .cli), ([0x78], .sei), ([0xD8], .cld), ([0xF8], .sed)] ∧
    decodesTo [([0xB8], .clv), ([0xEA], .nop), ([0x00], .brk), ([0x40], .rti)] := by decide

/-- The 78 unknown opcodes (30 R106), each one byte long. -/
theorem test_decode_unknown :
    unknownOpcodes.length = 78 ∧ decodesTo (unknownOpcodes.map fun op => ([op], .unknown op)) := by decide

/-- One word of each family written out bit by bit from its row of the opcode table: the opcode's bits, then the
operand's, the low byte first. -/
theorem test_decode_bits :
    decodesTo [([0b10101001, 0b01000010], .ldaImm 0b01000010), ([0b10001101, 0b00000000, 0b00100000], .staAbs 0b0010000000000000)] ∧
    decodesTo [([0b10101010], .tax), ([0b01101001, 0b00010111], .adcImm 0b00010111), ([0b11010010, 0b00100000], .cmpIzp 0b00100000)] ∧
    decodesTo [([0b11111110, 0b00000001, 0b10000000], .incAbsx 0b1000000000000001), ([0b01000001, 0b00010000], .eorIzx 0b00010000)] ∧
    decodesTo [([0b10001001, 0b11000000], .bitImm 0b11000000), ([0b00010100, 0b00010000], .trbZp 0b00010000), ([0b00001010], .aslAcc)] ∧
    decodesTo [([0b01111100, 0b11111110, 0b00000001], .jmpIax 0b0000000111111110), ([0b11010000, 0b11111100], .bne 0b11111100)] ∧
    decodesTo [([0b11011010], .phx), ([0b01011000], .cli), ([0b00000000], .brk), ([0b01000000], .rti)] ∧
    decodesTo [([0b00000010], .unknown 0b00000010)] := by decide

/-- Missing bytes are refused by name; the table's numbering has the first byte lowest. -/
theorem test_decode_edges :
    (decode []).toOption = none ∧ (decode [0xA9]).toOption = none ∧ (decode [0x8D, 0x00]).toOption = none ∧
      decodeTableWord 24 0x12348D = some (.staAbs 0x1234) ∧ decodeTableWord 8 0xA9 = some (.ldaImm 0x00) := by decide

/-- The word placed where the step fetches is the instruction the step runs, right after reset and with `PC` on a
device. -/
theorem test_withFetchWord :
    stepGives (State.reset.withFetchWord 16 0x42A9) (fun t => t.a == 0x42 && t.pc == 0x0002) ∧
    stepGives ((State.reset.setPc 0xC00F).withFetchWord 16 0x42A9) (fun t => t.a == 0x42 && t.pc == 0x0002) ∧
    stepGives ((State.reset.setPc 0xFFFF).withFetchWord 16 0x42A9) (fun t => t.a == 0x42 && t.pc == 0x0001) := by decide

/-! ## One step each: the vectors of 95 parts 2.1 to 2.6 -/

/-- 95 part 2.1: LDA imm, zero; LDA imm, negative; LDA zp; LDA zp,X wraps in page 0; LDA abs; LDA abs,X wraps at 64
KiB; LDA abs,Y page cross, no penalty; LDA (zp,X), pointer wraps; LDA (zp),Y; LDA (zp), pointer wraps; LDA imm at
FFFF, PC wraps; LDA abs at FFFE. -/
theorem test_lda :
    stepGives { boot 0x0800 [0xA9, 0x00] [] with a := 0x55, p := 0xA0 } (fun t =>
      t.a == 0x00 && t.p == 0x22 && t.pc == 0x0802 && t.clock == 2) ∧
    stepGives (boot 0x0800 [0xA9, 0x80] []) (fun t =>
      t.a == 0x80 && t.p == 0xA0 && t.pc == 0x0802 && t.clock == 2) ∧
    stepGives { boot 0x0800 [0xA5, 0x10] [(0x0010, 0x7F)] with p := 0xA2 } (fun t =>
      t.a == 0x7F && t.p == 0x20 && t.pc == 0x0802 && t.clock == 3) ∧
    stepGives { boot 0x0800 [0xB5, 0xF0] [(0x0010, 0x33), (0x0110, 0x99)] with x := 0x20 } (fun t =>
      t.a == 0x33 && t.p == 0x20 && t.pc == 0x0802 && t.clock == 4) ∧
    stepGives (boot 0x0800 [0xAD, 0x00, 0x03] [(0x0300, 0xC1)]) (fun t =>
      t.a == 0xC1 && t.p == 0xA0 && t.pc == 0x0803 && t.clock == 4) ∧
    stepGives { boot 0x0800 [0xBD, 0xFF, 0xFF] [(0x0001, 0x44)] with x := 0x02 } (fun t =>
      t.a == 0x44 && t.p == 0x20 && t.pc == 0x0803 && t.clock == 4) ∧
    stepGives { boot 0x0800 [0xB9, 0xF0, 0x02] [(0x0310, 0x01)] with y := 0x20 } (fun t =>
      t.a == 0x01 && t.p == 0x20 && t.pc == 0x0803 && t.clock == 4) ∧
    stepGives { boot 0x0800 [0xA1, 0xFF] [(0x00FF, 0x00), (0x0000, 0x03), (0x0100, 0x77), (0x0300, 0x5A)] with x := 0x00 } (fun t =>
      t.a == 0x5A && t.p == 0x20 && t.pc == 0x0802 && t.clock == 6) ∧
    stepGives { boot 0x0800 [0xB1, 0x20] [(0x0020, 0xF8), (0x0021, 0x02), (0x0308, 0x80)] with y := 0x10 } (fun t =>
      t.a == 0x80 && t.p == 0xA0 && t.pc == 0x0802 && t.clock == 5) ∧
    stepGives { boot 0x0800 [0xB2, 0xFF] [(0x00FF, 0x34), (0x0000, 0x12), (0x0100, 0x56), (0x1234, 0x00)] with a := 0x01 } (fun t =>
      t.a == 0x00 && t.p == 0x22 && t.pc == 0x0802 && t.clock == 5) ∧
    stepGives (bootRam 0xFFFF [0xA9, 0x42] []) (fun t =>
      t.a == 0x42 && t.pc == 0x0001 && t.clock == 2) ∧
    stepGives (bootRam 0xFFFE [0xAD, 0x00, 0x03] [(0x0300, 0x99)]) (fun t =>
      t.a == 0x99 && t.p == 0xA0 && t.pc == 0x0001 && t.clock == 4) := by decide

/-- 95 part 2.1: LDX zp,Y wraps; LDX abs,Y; LDY abs,X. -/
theorem test_ldx_ldy :
    stepGives { boot 0x0800 [0xB6, 0xFF] [(0x0001, 0x9C)] with y := 0x02 } (fun t =>
      t.x == 0x9C && t.p == 0xA0 && t.pc == 0x0802 && t.clock == 4) ∧
    stepGives { boot 0x0800 [0xBE, 0x00, 0x03] [(0x0305, 0x00)] with y := 0x05 } (fun t =>
      t.x == 0x00 && t.p == 0x22 && t.pc == 0x0803 && t.clock == 4) ∧
    stepGives { boot 0x0800 [0xBC, 0x00, 0x03] [(0x0305, 0xFF)] with x := 0x05 } (fun t =>
      t.y == 0xFF && t.p == 0xA0 && t.pc == 0x0803 && t.clock == 4) := by decide

/-- 95 part 2.1: STA abs; STA into the ROM window, BANK_ROM; STA abs,X, flags untouched; STA (zp),Y; STA (zp). -/
theorem test_sta :
    stepGives { boot 0x0800 [0x8D, 0x00, 0x20] [] with a := 0x42 } (fun t =>
      t.p == 0x20 && t.pc == 0x0803 && t.clock == 4 && t.ramAt 0x2000 == 0x42) ∧
    stepGives { boot 0x0800 [0x8D, 0x00, 0xD0] [] with a := 0xDE } (fun t =>
      t.p == 0x20 && t.pc == 0x0803 && t.clock == 4 && t.ramAt 0xD000 == 0x00 && t.romAt 0x1000 == 0x00) ∧
    stepGives { boot 0x0800 [0x9D, 0x00, 0x03] [] with a := 0x11, x := 0xFF, p := 0xE3 } (fun t =>
      t.p == 0xE3 && t.pc == 0x0803 && t.clock == 5 && t.ramAt 0x03FF == 0x11) ∧
    stepGives { boot 0x0800 [0x91, 0x20] [(0x0020, 0xFF), (0x0021, 0x03)] with a := 0x99, y := 0x01 } (fun t =>
      t.pc == 0x0802 && t.clock == 6 && t.ramAt 0x0400 == 0x99) ∧
    stepGives { boot 0x0800 [0x92, 0x20] [(0x0020, 0x00), (0x0021, 0x03)] with a := 0x77 } (fun t =>
      t.pc == 0x0802 && t.clock == 5 && t.ramAt 0x0300 == 0x77) := by decide

/-- 95 part 2.1: STX zp,Y wraps; STY zp,X; STZ zp, flags untouched; STZ abs,X. -/
theorem test_stx_sty_stz :
    stepGives { boot 0x0800 [0x96, 0x80] [] with x := 0xAB, y := 0x90 } (fun t =>
      t.pc == 0x0802 && t.clock == 4 && t.ramAt 0x0010 == 0xAB) ∧
    stepGives { boot 0x0800 [0x94, 0x80] [] with y := 0xCD, x := 0x7F } (fun t =>
      t.pc == 0x0802 && t.clock == 4 && t.ramAt 0x00FF == 0xCD) ∧
    stepGives { boot 0x0800 [0x64, 0x10] [(0x0010, 0xFF)] with p := 0xA1 } (fun t =>
      t.p == 0xA1 && t.pc == 0x0802 && t.clock == 3 && t.ramAt 0x0010 == 0x00) ∧
    stepGives { boot 0x0800 [0x9E, 0x00, 0x03] [(0x0304, 0xEE)] with x := 0x04 } (fun t =>
      t.pc == 0x0803 && t.clock == 5 && t.ramAt 0x0304 == 0x00) := by decide

/-- 95 part 2.1: TAX zero; TAY negative; TXA; TYA; TSX sets NZ; TXS sets no flag. -/
theorem test_transfers :
    stepGives { boot 0x0800 [0xAA] [] with a := 0x00, x := 0x09 } (fun t =>
      t.x == 0x00 && t.p == 0x22 && t.pc == 0x0801 && t.clock == 2) ∧
    stepGives { boot 0x0800 [0xA8] [] with a := 0x80 } (fun t =>
      t.y == 0x80 && t.p == 0xA0 && t.pc == 0x0801 && t.clock == 2) ∧
    stepGives { boot 0x0800 [0x8A] [] with x := 0x7F, p := 0xA2 } (fun t =>
      t.a == 0x7F && t.p == 0x20 && t.pc == 0x0801 && t.clock == 2) ∧
    stepGives { boot 0x0800 [0x98] [] with y := 0xFF } (fun t =>
      t.a == 0xFF && t.p == 0xA0 && t.pc == 0x0801 && t.clock == 2) ∧
    stepGives { boot 0x0800 [0xBA] [] with sp := 0x00, x := 0x05 } (fun t =>
      t.x == 0x00 && t.p == 0x22 && t.pc == 0x0801 && t.clock == 2) ∧
    stepGives { boot 0x0800 [0x9A] [] with x := 0x00, sp := 0xFF, p := 0xA0 } (fun t =>
      t.sp == 0x00 && t.p == 0xA0 && t.pc == 0x0801 && t.clock == 2) := by decide

/-- 95 part 2.2: ADC 50+50: signed overflow; ADC FF+01: carry, zero; ADC 7F+00+C; ADC 80+80; ADC FF+FF+C; ADC zp
clears old N,V,Z; ADC decimal 25+17 (W3); ADC decimal 99+01; ADC decimal 58+46+C; ADC decimal 79+00+C. -/
theorem test_adc :
    stepGives { boot 0x0800 [0x69, 0x50] [] with a := 0x50 } (fun t =>
      t.a == 0xA0 && t.p == 0xE0 && t.clock == 2) ∧
    stepGives { boot 0x0800 [0x69, 0x01] [] with a := 0xFF } (fun t =>
      t.a == 0x00 && t.p == 0x23) ∧
    stepGives { boot 0x0800 [0x69, 0x00] [] with a := 0x7F, p := 0x21 } (fun t =>
      t.a == 0x80 && t.p == 0xE0) ∧
    stepGives { boot 0x0800 [0x69, 0x80] [] with a := 0x80 } (fun t =>
      t.a == 0x00 && t.p == 0x63) ∧
    stepGives { boot 0x0800 [0x69, 0xFF] [] with a := 0xFF, p := 0x21 } (fun t =>
      t.a == 0xFF && t.p == 0xA1) ∧
    stepGives { boot 0x0800 [0x65, 0x10] [(0x0010, 0x02)] with a := 0x01, p := 0xE2 } (fun t =>
      t.a == 0x03 && t.p == 0x20 && t.pc == 0x0802 && t.clock == 3) ∧
    stepGives { boot 0x0800 [0x69, 0x17] [] with a := 0x25, p := 0x28 } (fun t =>
      t.a == 0x42 && t.p == 0x28) ∧
    stepGives { boot 0x0800 [0x69, 0x01] [] with a := 0x99, p := 0x28 } (fun t =>
      t.a == 0x00 && t.p == 0x2B) ∧
    stepGives { boot 0x0800 [0x69, 0x46] [] with a := 0x58, p := 0x29 } (fun t =>
      t.a == 0x05 && t.p == 0x69) ∧
    stepGives { boot 0x0800 [0x69, 0x00] [] with a := 0x79, p := 0x29 } (fun t =>
      t.a == 0x80 && t.p == 0xA8) := by decide

/-- 95 part 2.2: SBC 50−F0; SBC 50−B0: signed overflow; SBC 00−01; SBC 05−05; SBC 05−05 with borrow in; SBC 80−01:
signed overflow; SBC decimal 42−17; SBC decimal 00−01; SBC decimal 50−25 with borrow in. -/
theorem test_sbc :
    stepGives { boot 0x0800 [0xE9, 0xF0] [] with a := 0x50, p := 0x21 } (fun t =>
      t.a == 0x60 && t.p == 0x20) ∧
    stepGives { boot 0x0800 [0xE9, 0xB0] [] with a := 0x50, p := 0x21 } (fun t =>
      t.a == 0xA0 && t.p == 0xE0) ∧
    stepGives { boot 0x0800 [0xE9, 0x01] [] with a := 0x00, p := 0x21 } (fun t =>
      t.a == 0xFF && t.p == 0xA0) ∧
    stepGives { boot 0x0800 [0xE9, 0x05] [] with a := 0x05, p := 0x21 } (fun t =>
      t.a == 0x00 && t.p == 0x23) ∧
    stepGives { boot 0x0800 [0xE9, 0x05] [] with a := 0x05, p := 0x20 } (fun t =>
      t.a == 0xFF && t.p == 0xA0) ∧
    stepGives { boot 0x0800 [0xE9, 0x01] [] with a := 0x80, p := 0x21 } (fun t =>
      t.a == 0x7F && t.p == 0x61) ∧
    stepGives { boot 0x0800 [0xE9, 0x17] [] with a := 0x42, p := 0x29 } (fun t =>
      t.a == 0x25 && t.p == 0x29) ∧
    stepGives { boot 0x0800 [0xE9, 0x01] [] with a := 0x00, p := 0x29 } (fun t =>
      t.a == 0x99 && t.p == 0xA8) ∧
    stepGives { boot 0x0800 [0xE9, 0x25] [] with a := 0x50, p := 0x28 } (fun t =>
      t.a == 0x24 && t.p == 0x29) := by decide

/-- 95 part 2.2: CMP equal, V untouched; CMP less; CMP greater; CMP (zp); CPX equal; CPY zp. -/
theorem test_compares :
    stepGives { boot 0x0800 [0xC9, 0x40] [] with a := 0x40, p := 0xE0 } (fun t =>
      t.a == 0x40 && t.p == 0x63) ∧
    stepGives { boot 0x0800 [0xC9, 0x41] [] with a := 0x40, p := 0x63 } (fun t =>
      t.p == 0xE0) ∧
    stepGives { boot 0x0800 [0xC9, 0x10] [] with a := 0xF0 } (fun t =>
      t.p == 0xA1) ∧
    stepGives { boot 0x0800 [0xD2, 0x20] [(0x0020, 0x00), (0x0021, 0x03), (0x0300, 0x20)] with a := 0x10 } (fun t =>
      t.p == 0xA0 && t.pc == 0x0802 && t.clock == 5) ∧
    stepGives { boot 0x0800 [0xE0, 0x05] [] with x := 0x05 } (fun t =>
      t.p == 0x23) ∧
    stepGives { boot 0x0800 [0xC4, 0x10] [(0x0010, 0x01)] with y := 0x00 } (fun t =>
      t.p == 0xA0 && t.clock == 3) := by decide

/-- 95 part 2.2: INC zp FF→00, C untouched; INC abs,X 7F→80; DEC zp 00→FF; DEC abs 01→00. -/
theorem test_inc_dec :
    stepGives { boot 0x0800 [0xE6, 0x10] [(0x0010, 0xFF)] with p := 0x21 } (fun t =>
      t.p == 0x23 && t.pc == 0x0802 && t.clock == 5 && t.ramAt 0x0010 == 0x00) ∧
    stepGives { boot 0x0800 [0xFE, 0x00, 0x03] [(0x0301, 0x7F)] with x := 0x01 } (fun t =>
      t.p == 0xA0 && t.pc == 0x0803 && t.clock == 7 && t.ramAt 0x0301 == 0x80) ∧
    stepGives { boot 0x0800 [0xC6, 0x10] [] with p := 0x23 } (fun t =>
      t.p == 0xA1 && t.clock == 5 && t.ramAt 0x0010 == 0xFF) ∧
    stepGives (boot 0x0800 [0xCE, 0x00, 0x03] [(0x0300, 0x01)]) (fun t =>
      t.p == 0x22 && t.clock == 6 && t.ramAt 0x0300 == 0x00) := by decide

/-- 95 part 2.2: INX wraps; INY; DEX wraps; DEY to zero; INA wraps, C untouched; DEA. -/
theorem test_register_inc_dec :
    stepGives { boot 0x0800 [0xE8] [] with x := 0xFF } (fun t =>
      t.x == 0x00 && t.p == 0x22 && t.clock == 2) ∧
    stepGives { boot 0x0800 [0xC8] [] with y := 0x7F } (fun t =>
      t.y == 0x80 && t.p == 0xA0) ∧
    stepGives { boot 0x0800 [0xCA] [] with x := 0x00 } (fun t =>
      t.x == 0xFF && t.p == 0xA0) ∧
    stepGives { boot 0x0800 [0x88] [] with y := 0x01 } (fun t =>
      t.y == 0x00 && t.p == 0x22) ∧
    stepGives { boot 0x0800 [0x1A] [] with a := 0xFF, p := 0x21 } (fun t =>
      t.a == 0x00 && t.p == 0x23 && t.clock == 2) ∧
    stepGives { boot 0x0800 [0x3A] [] with a := 0x00 } (fun t =>
      t.a == 0xFF && t.p == 0xA0 && t.clock == 2) := by decide

/-- 95 part 2.3: AND to zero; AND negative; ORA; ORA zero; EOR; EOR (zp,X). -/
theorem test_and_ora_eor :
    stepGives { boot 0x0800 [0x29, 0x0F] [] with a := 0xF0 } (fun t =>
      t.a == 0x00 && t.p == 0x22) ∧
    stepGives { boot 0x0800 [0x29, 0xF0] [] with a := 0x8F } (fun t =>
      t.a == 0x80 && t.p == 0xA0) ∧
    stepGives { boot 0x0800 [0x09, 0x80] [] with a := 0x01 } (fun t =>
      t.a == 0x81 && t.p == 0xA0) ∧
    stepGives { boot 0x0800 [0x09, 0x00] [] with a := 0x00, p := 0xA0 } (fun t =>
      t.a == 0x00 && t.p == 0x22) ∧
    stepGives { boot 0x0800 [0x49, 0xFF] [] with a := 0xFF } (fun t =>
      t.a == 0x00 && t.p == 0x22) ∧
    stepGives { boot 0x0800 [0x41, 0x10] [(0x0014, 0x00), (0x0015, 0x03), (0x0300, 0xF0)] with a := 0x0F, x := 0x04 } (fun t =>
      t.a == 0xFF && t.p == 0xA0 && t.pc == 0x0802 && t.clock == 6) := by decide

/-- 95 part 2.3: BIT zp: N,V from memory, Z from A∧M; BIT abs, nonzero; BIT #imm touches Z only; BIT #imm keeps N,V;
BIT zp,X; BIT abs,X. -/
theorem test_bit :
    stepGives { boot 0x0800 [0x24, 0x10] [(0x0010, 0xC0)] with a := 0x00 } (fun t =>
      t.p == 0xE2 && t.clock == 3) ∧
    stepGives { boot 0x0800 [0x2C, 0x00, 0x03] [(0x0300, 0x41)] with a := 0x01, p := 0xA2 } (fun t =>
      t.p == 0x60 && t.clock == 4) ∧
    stepGives { boot 0x0800 [0x89, 0xC0] [] with a := 0x00 } (fun t =>
      t.p == 0x22 && t.clock == 2) ∧
    stepGives { boot 0x0800 [0x89, 0x01] [] with a := 0x01, p := 0xE2 } (fun t =>
      t.p == 0xE0) ∧
    stepGives { boot 0x0800 [0x34, 0x10] [(0x0011, 0x80)] with a := 0xFF, x := 0x01 } (fun t =>
      t.p == 0xA0 && t.clock == 4) ∧
    stepGives { boot 0x0800 [0x3C, 0x00, 0x03] [(0x0301, 0x40)] with a := 0xFF, x := 0x01 } (fun t =>
      t.p == 0x60 && t.clock == 4) := by decide

/-- 95 part 2.3: TRB zp; TRB abs, Z set; TSB zp; TSB abs. -/
theorem test_trb_tsb :
    stepGives { boot 0x0800 [0x14, 0x10] [(0x0010, 0x3C)] with a := 0x0F } (fun t =>
      t.p == 0x20 && t.clock == 5 && t.ramAt 0x0010 == 0x30) ∧
    stepGives { boot 0x0800 [0x1C, 0x00, 0x03] [(0x0300, 0x3F)] with a := 0xC0 } (fun t =>
      t.p == 0x22 && t.clock == 6 && t.ramAt 0x0300 == 0x3F) ∧
    stepGives { boot 0x0800 [0x04, 0x10] [(0x0010, 0x30)] with a := 0x0F } (fun t =>
      t.p == 0x22 && t.clock == 5 && t.ramAt 0x0010 == 0x3F) ∧
    stepGives { boot 0x0800 [0x0C, 0x00, 0x03] [(0x0300, 0x01)] with a := 0x81, p := 0x22 } (fun t =>
      t.p == 0x20 && t.clock == 6 && t.ramAt 0x0300 == 0x81) := by decide

/-- 95 part 2.3: ASL A; ASL zp, old C discarded; LSR A; LSR abs,X. -/
theorem test_asl_lsr :
    stepGives { boot 0x0800 [0x0A] [] with a := 0x81 } (fun t =>
      t.a == 0x02 && t.p == 0x21 && t.clock == 2) ∧
    stepGives { boot 0x0800 [0x06, 0x10] [(0x0010, 0x40)] with p := 0x21 } (fun t =>
      t.p == 0xA0 && t.clock == 5 && t.ramAt 0x0010 == 0x80) ∧
    stepGives { boot 0x0800 [0x4A] [] with a := 0x01, p := 0xA0 } (fun t =>
      t.a == 0x00 && t.p == 0x23) ∧
    stepGives { boot 0x0800 [0x5E, 0x00, 0x03] [(0x0302, 0xFE)] with x := 0x02 } (fun t =>
      t.p == 0x20 && t.clock == 7 && t.ramAt 0x0302 == 0x7F) := by decide

/-- 95 part 2.3: ROL A; ROL zp,X; ROR A; ROR abs. -/
theorem test_rol_ror :
    stepGives { boot 0x0800 [0x2A] [] with a := 0x80, p := 0x21 } (fun t =>
      t.a == 0x01 && t.p == 0x21) ∧
    stepGives { boot 0x0800 [0x36, 0x10] [(0x0011, 0x40)] with x := 0x01 } (fun t =>
      t.p == 0xA0 && t.clock == 6 && t.ramAt 0x0011 == 0x80) ∧
    stepGives { boot 0x0800 [0x6A] [] with a := 0x01, p := 0x21 } (fun t =>
      t.a == 0x80 && t.p == 0xA1) ∧
    stepGives (boot 0x0800 [0x6E, 0x00, 0x03] [(0x0300, 0x02)]) (fun t =>
      t.p == 0x20 && t.clock == 6 && t.ramAt 0x0300 == 0x01) := by decide

/-- 95 part 2.4: JMP abs; JMP (abs), pointer at a page end: no wrap defect (D9); JMP (abs,X); JMP (abs,X), pointer
wraps at 64 KiB. -/
theorem test_jmp :
    stepGives (boot 0x0800 [0x4C, 0x34, 0x12] []) (fun t =>
      t.pc == 0x1234 && t.clock == 3) ∧
    stepGives (boot 0x0800 [0x6C, 0xFF, 0x20] [(0x20FF, 0x34), (0x2100, 0x12), (0x2000, 0x99)]) (fun t =>
      t.pc == 0x1234 && t.clock == 5) ∧
    stepGives { boot 0x0800 [0x7C, 0x00, 0x03] [(0x0304, 0x78), (0x0305, 0x56)] with x := 0x04 } (fun t =>
      t.pc == 0x5678 && t.clock == 6) ∧
    stepGives { boot 0x0800 [0x7C, 0xFF, 0xFF] [(0x0000, 0x11), (0x0001, 0x22)] with x := 0x01 } (fun t =>
      t.pc == 0x2211 && t.clock == 6) := by decide

/-- 95 part 2.4: JSR; JSR, S wraps; RTS; RTS, address wraps; RTS, S wraps. -/
theorem test_jsr_rts :
    stepGives (boot 0x0800 [0x20, 0x34, 0x12] []) (fun t =>
      t.sp == 0xFD && t.pc == 0x1234 && t.clock == 6 && t.ramAt 0x01FF == 0x08 && t.ramAt 0x01FE == 0x02) ∧
    stepGives { boot 0x0800 [0x20, 0x34, 0x12] [] with sp := 0x00 } (fun t =>
      t.sp == 0xFE && t.pc == 0x1234 && t.ramAt 0x0100 == 0x08 && t.ramAt 0x01FF == 0x02) ∧
    stepGives { boot 0x0800 [0x60] [(0x01FE, 0x02), (0x01FF, 0x08)] with sp := 0xFD } (fun t =>
      t.sp == 0xFF && t.pc == 0x0803 && t.clock == 6) ∧
    stepGives { boot 0x0800 [0x60] [(0x01FE, 0xFF), (0x01FF, 0xFF)] with sp := 0xFD } (fun t =>
      t.pc == 0x0000) ∧
    stepGives { boot 0x0800 [0x60] [(0x0100, 0x10), (0x0101, 0x20)] with sp := 0xFF } (fun t =>
      t.sp == 0x01 && t.pc == 0x2011) := by decide

/-- 95 part 2.4: BNE taken backwards; BNE not taken; BEQ taken, offset 7F; BEQ taken, offset 80; BCC taken; BCS not
taken; BCS taken; BNE wraps at 64 KiB. -/
theorem test_branches_taken :
    stepGives { boot 0x0800 [0xD0, 0xFC] [] with p := 0x20 } (fun t =>
      t.pc == 0x07FE && t.clock == 3) ∧
    stepGives { boot 0x0800 [0xD0, 0xFC] [] with p := 0x22 } (fun t =>
      t.pc == 0x0802 && t.clock == 2) ∧
    stepGives { boot 0x0800 [0xF0, 0x7F] [] with p := 0x22 } (fun t =>
      t.pc == 0x0881 && t.clock == 3) ∧
    stepGives { boot 0x0800 [0xF0, 0x80] [] with p := 0x22 } (fun t =>
      t.pc == 0x0782 && t.clock == 3) ∧
    stepGives { boot 0x0800 [0x90, 0x02] [] with p := 0x20 } (fun t =>
      t.pc == 0x0804 && t.clock == 3) ∧
    stepGives { boot 0x0800 [0xB0, 0x02] [] with p := 0x20 } (fun t =>
      t.pc == 0x0802 && t.clock == 2) ∧
    stepGives { boot 0x0800 [0xB0, 0x02] [] with p := 0x21 } (fun t =>
      t.pc == 0x0804 && t.clock == 3) ∧
    stepGives (bootRam 0xFFF0 [0xD0, 0x20] []) (fun t =>
      t.pc == 0x0012 && t.clock == 3) := by decide

/-- 95 part 2.4: BMI taken; BPL not taken; BVC taken, offset 0; BVS taken to itself. -/
theorem test_branches_more :
    stepGives { boot 0x0800 [0x30, 0x10] [] with p := 0xA0 } (fun t =>
      t.pc == 0x0812 && t.clock == 3) ∧
    stepGives { boot 0x0800 [0x10, 0x10] [] with p := 0xA0 } (fun t =>
      t.pc == 0x0802 && t.clock == 2) ∧
    stepGives { boot 0x0800 [0x50, 0x00] [] with p := 0x20 } (fun t =>
      t.pc == 0x0802 && t.clock == 3) ∧
    stepGives { boot 0x0800 [0x70, 0xFE] [] with p := 0x60 } (fun t =>
      t.pc == 0x0800 && t.clock == 3) := by decide

/-- 95 part 2.4: BRA; BRA across a page: no extra cycle; BRA at FFFF, operand at 0000. -/
theorem test_bra :
    stepGives (boot 0x0800 [0x80, 0x05] []) (fun t =>
      t.pc == 0x0807 && t.clock == 3) ∧
    stepGives (boot 0x08F0 [0x80, 0x7F] []) (fun t =>
      t.pc == 0x0971 && t.clock == 3) ∧
    stepGives (bootRam 0xFFFF [0x80, 0x00] []) (fun t =>
      t.pc == 0x0001 && t.clock == 3) := by decide

/-- 95 part 2.5: PHA; PHA, S wraps; PHX; PHY; PHP pushes B=1 and bit 5; PHP all flags. -/
theorem test_pushes :
    stepGives { boot 0x0800 [0x48] [] with a := 0x5A } (fun t =>
      t.sp == 0xFE && t.pc == 0x0801 && t.clock == 3 && t.ramAt 0x01FF == 0x5A) ∧
    stepGives { boot 0x0800 [0x48] [] with a := 0x5A, sp := 0x00 } (fun t =>
      t.sp == 0xFF && t.ramAt 0x0100 == 0x5A) ∧
    stepGives { boot 0x0800 [0xDA] [] with x := 0x11 } (fun t =>
      t.sp == 0xFE && t.clock == 3 && t.ramAt 0x01FF == 0x11) ∧
    stepGives { boot 0x0800 [0x5A] [] with y := 0x22 } (fun t =>
      t.sp == 0xFE && t.clock == 3 && t.ramAt 0x01FF == 0x22) ∧
    stepGives { boot 0x0800 [0x08] [] with p := 0x20 } (fun t =>
      t.sp == 0xFE && t.clock == 3 && t.ramAt 0x01FF == 0x30) ∧
    stepGives { boot 0x0800 [0x08] [] with p := 0xEF } (fun t =>
      t.p == 0xEF && t.ramAt 0x01FF == 0xFF) := by decide

/-- 95 part 2.5: PLA zero; PLA, S wraps; PLX; PLY. -/
theorem test_pulls :
    stepGives { boot 0x0800 [0x68] [(0x01FF, 0x00)] with a := 0x07, sp := 0xFE } (fun t =>
      t.a == 0x00 && t.sp == 0xFF && t.p == 0x22 && t.clock == 4) ∧
    stepGives { boot 0x0800 [0x68] [(0x0100, 0x80)] with sp := 0xFF } (fun t =>
      t.a == 0x80 && t.sp == 0x00 && t.p == 0xA0) ∧
    stepGives { boot 0x0800 [0xFA] [(0x01FF, 0x80)] with sp := 0xFE } (fun t =>
      t.x == 0x80 && t.sp == 0xFF && t.p == 0xA0 && t.clock == 4) ∧
    stepGives { boot 0x0800 [0x7A] [(0x01FF, 0x00)] with sp := 0xFE } (fun t =>
      t.y == 0x00 && t.sp == 0xFF && t.p == 0x22 && t.clock == 4) := by decide

/-- 95 part 2.5: PLP pulling 00: bit 5 forced; PLP pulling FF; PLP pulling 10: B is loaded (D15); PLP clearing I with
pendingIRQ=2; PLP leaving I set with pendingIRQ=2. -/
theorem test_plp :
    stepGives { boot 0x0800 [0x28] [(0x01FF, 0x00)] with sp := 0xFE, p := 0xFF } (fun t =>
      t.p == 0x20 && t.sp == 0xFF && t.clock == 4) ∧
    stepGives { boot 0x0800 [0x28] [(0x01FF, 0xFF)] with sp := 0xFE } (fun t =>
      t.p == 0xFF) ∧
    stepGives { boot 0x0800 [0x28] [(0x01FF, 0x10)] with sp := 0xFE } (fun t =>
      t.p == 0x30) ∧
    stepGives { boot 0x0800 [0x28] [(0x01FF, 0x00)] with sp := 0xFE, p := 0x24, pendingIrq := 2 } (fun t =>
      t.p == 0x20 && t.pendingIrq == 1 && t.latches.irq) ∧
    stepGives { boot 0x0800 [0x28] [(0x01FF, 0x04)] with sp := 0xFE, p := 0x24, pendingIrq := 2 } (fun t =>
      t.p == 0x24 && t.pendingIrq == 2 && !t.latches.irq) := by decide

/-- 95 part 2.6: CLC; SEC; SEI; CLD; SED; CLV; NOP. -/
theorem test_flags :
    stepGives { boot 0x0800 [0x18] [] with p := 0xFF } (fun t =>
      t.p == 0xFE && t.clock == 2) ∧
    stepGives (boot 0x0800 [0x38] []) (fun t =>
      t.p == 0x21) ∧
    stepGives (boot 0x0800 [0x78] []) (fun t =>
      t.p == 0x24) ∧
    stepGives { boot 0x0800 [0xD8] [] with p := 0x28 } (fun t =>
      t.p == 0x20) ∧
    stepGives (boot 0x0800 [0xF8] []) (fun t =>
      t.p == 0x28) ∧
    stepGives { boot 0x0800 [0xB8] [] with p := 0x60 } (fun t =>
      t.p == 0x20) ∧
    stepGives { boot 0x0800 [0xEA] [] with a := 0x01, x := 0x02, y := 0x03, p := 0xE3 } (fun t =>
      t.a == 0x01 && t.x == 0x02 && t.y == 0x03 && t.p == 0xE3 && t.pc == 0x0801 && t.clock == 2) := by decide

/-- 95 part 2.6: CLI; CLI with I already 0, pendingIRQ=3. -/
theorem test_cli :
    stepGives { boot 0x0800 [0x58] [] with p := 0x24 } (fun t =>
      t.p == 0x20) ∧
    stepGives { boot 0x0800 [0x58] [] with p := 0x20, pendingIrq := 3 } (fun t =>
      t.p == 0x20 && t.pendingIrq == 2 && t.latches.irq) := by decide

/-- 95 part 2.6: BRK, vector read through the bus (RAM bank); BRK leaves D set (D14). -/
theorem test_brk :
    stepGives (bootRam 0x0808 [0x00] [(0xFFFE, 0x40), (0xFFFF, 0xFA)]) (fun t =>
      t.sp == 0xFC && t.p == 0x24 && t.pc == 0xFA40 && t.clock == 7 && t.ramAt 0x01FF == 0x08 && t.ramAt 0x01FE == 0x0A && t.ramAt 0x01FD == 0x30) ∧
    stepGives { bootRam 0x0800 [0x00] [(0xFFFE, 0x00), (0xFFFF, 0x90)] with p := 0x28 } (fun t =>
      t.sp == 0xFC && t.p == 0x2C && t.pc == 0x9000 && t.ramAt 0x01FF == 0x08 && t.ramAt 0x01FE == 0x02 && t.ramAt 0x01FD == 0x38) := by decide

/-- 95 part 2.6: RTI; RTI pulling C3; RTI never replays. -/
theorem test_rti :
    stepGives { boot 0x0800 [0x40] [(0x01FD, 0x30), (0x01FE, 0x0A), (0x01FF, 0x08)] with sp := 0xFC, p := 0x24 } (fun t =>
      t.p == 0x30 && t.sp == 0xFF && t.pc == 0x080A && t.clock == 6) ∧
    stepGives { boot 0x0800 [0x40] [(0x01FD, 0xC3), (0x01FE, 0x00), (0x01FF, 0x90)] with sp := 0xFC } (fun t =>
      t.p == 0xE3 && t.pc == 0x9000) ∧
    stepGives { boot 0x0800 [0x40] [(0x01FD, 0x20), (0x01FE, 0x00), (0x01FF, 0x09)] with sp := 0xFC, p := 0x24, pendingIrq := 1 } (fun t =>
      t.p == 0x20 && t.pc == 0x0900 && t.pendingIrq == 1 && !t.latches.irq) := by decide

/-- 95 part 2.6: unknown opcode 02 (D8); unknown opcode CB; unknown opcode at FFFF. -/
theorem test_unknown_opcodes :
    stepGives { boot 0x0800 [0x02, 0xFF] [] with a := 0x01, x := 0x02, y := 0x03, p := 0xE3 } (fun t =>
      t.a == 0x01 && t.x == 0x02 && t.y == 0x03 && t.p == 0xE3 && t.pc == 0x0801 && t.clock == 2) ∧
    stepGives (boot 0x0800 [0xCB] []) (fun t =>
      t.pc == 0x0801 && t.clock == 2) ∧
    stepGives (bootRam 0xFFFF [0xFF] []) (fun t =>
      t.pc == 0x0000 && t.clock == 2) := by decide

/-! ## Interrupts: 95 part 2.7 -/

/-- The vectors of the test ROM, and a NOP at each handler. -/
def testRom : List (Addr × Byte) :=
  [(0xFFFA, 0x00), (0xFFFB, 0xFE), (0xFFFC, 0x00), (0xFFFD, 0xC1), (0xFFFE, 0x00), (0xFFFF, 0xFF)] ++
  [(0xFE00, 0xEA), (0xC100, 0xEA), (0xFF00, 0xEA)]

theorem test_nmi :
    stepGives { boot 0x0800 [0xEA] testRom with latches := ⟨false, true, false⟩ } (fun t =>
      t.ramAt 0x01FF == 0x08 && t.ramAt 0x01FE == 0x00 && t.ramAt 0x01FD == 0x20 && t.sp == 0xFC && t.p == 0x20 &&
      t.pc == 0xFE01 && t.clock == 9 && !t.latches.nmi) ∧
    stepGives { boot 0x0800 [0xEA] testRom with p := 0x34, latches := ⟨false, true, false⟩ } (fun t =>
      t.ramAt 0x01FD == 0x34 && t.p == 0x34 && t.pc == 0xFE01 && t.clock == 9) := by decide

theorem test_irq :
    stepGives { boot 0x1234 [0xEA] testRom with p := 0x30, latches := ⟨false, false, true⟩ } (fun t =>
      t.ramAt 0x01FF == 0x12 && t.ramAt 0x01FE == 0x34 && t.ramAt 0x01FD == 0x20 && t.sp == 0xFC && t.p == 0x34 &&
      t.pc == 0xFF01 && t.clock == 9) ∧
    stepGives { boot 0x0800 [0xEA] testRom with p := 0x24, latches := ⟨false, false, true⟩ } (fun t =>
      t.pendingIrq == 1 && !t.latches.irq && t.sp == 0xFF && t.pc == 0x0801 && t.clock == 2) := by decide

theorem test_reset_sequence :
    stepGives { boot 0x0800 [0xEA] testRom with a := 0x09, p := 0xFF, sp := 0x80, clock := 100, latches := ⟨true, true, true⟩ }
      (fun t =>
        t.a == 0x00 && t.sp == 0xF9 && t.p == 0x24 && t.pc == 0xFF01 && t.clock == 116 && t.ramAt 0x01FF == 0xC1 &&
        t.ramAt 0x01FE == 0x00 && t.ramAt 0x01FD == 0x20 && t.ramAt 0x01FC == 0xFE && t.ramAt 0x01FB == 0x00 &&
        t.ramAt 0x01FA == 0x20) ∧
    stepGives { bootRam 0x0800 [0xEA] [(0xFFFC, 0x00), (0xFFFD, 0x08)] with
        clock := 5000, pendingIrq := 2, p := 0x2D, latches := ⟨true, false, false⟩ } (fun t =>
      t.a == 0x00 && t.sp == 0xFF && t.p == 0x20 && t.pc == 0x0801 && t.clock == 5002 && t.pendingIrq == 2) := by decide

/-! ## Devices: 95 parts 2.8 to 2.12 -/

theorem test_bank_switch :
    (let s := poke [(0xD000, 0x03), (0xC100, 0xAB)] State.reset
    let ram := memWrite 0xD000 0xDE (memWrite 0xC05B 0x00 s)
    readOf 0xD000 (memWrite 0xD000 0xDE s) = 0x03 ∧ readOf 0xD000 (memWrite 0xC05B 0x77 s) = 0x00 ∧
    readOf 0xD000 ram = 0xDE ∧ readOf 0xD000 (afterRead 0xC05A ram) = 0x03 ∧
    readOf 0xD000 (afterRead 0xC05B (afterRead 0xC05A ram)) = 0xDE ∧ readOf 0xC100 s = 0xAB ∧
    readOf 0xC040 s = 0xFF ∧ readOf 0xC058 s = 0xFF ∧ readOf 0xC0FF s = 0xFF ∧ memWrite 0xC040 0x12 s = s) := by decide

theorem test_video_switches :
    (let s := State.reset
    let s1 := afterRead 0xC050 s
    let s2 := afterRead 0xC055 s1
    let s3 := afterRead 0xC051 s2
    let s4 := memWrite 0xC054 0xFF s3
    readOf 0xC050 s = 0xFF ∧ readOf 0xC055 s1 = 0xFF ∧ s2.vid.colorMode = .color ∧ s2.vid.hiresPage = .page2 ∧
    s3.vid.colorMode = .mono ∧ s3.vid.hiresPage = .page2 ∧ s4.vid.hiresPage = .page1) := by decide

/-- Key A (row 1, column 5) with SHIFT and CTRL, and a key at row 3, column 2 with neither. -/
theorem test_keyboard :
    (let s := pushKey (.char 'A') true true State.reset
    let s2 := memWrite 0xC000 0x02 s
    let q := memWrite 0xC05F 0x55 s2
    readOf 0xC000 (memWrite 0xC000 0x01 s) = 0x01 ∧ readOf 0xC01F s2 = 0x20 ∧ q.kb.kbin = 0x02 ∧
    readOf 0xC05F q = 0x21 ∧ readOf 0xC05F (afterRead 0xC05F q) = 0x20 ∧ readOf 0xC000 (memWrite 0xC05E 0x00 q) = 0x20) ∧
    (let s := pushKey (.char '4') false false State.reset
    readOf 0xC000 (memWrite 0xC000 0x08 s) = 0x04 ∧ readOf 0xC000 (memWrite 0xC000 0x04 s) = 0x00 ∧
    readOf 0xC000 (memWrite 0xC000 0x0C s) = 0x00 ∧ readOf 0xC000 (memWrite 0xC000 0x08 (releaseKey s)) = 0x00) := by decide

/-- 47 R255: a lower-case letter, Backspace as LEFT, a key with no mapping. -/
theorem test_keys :
    keyToMatrix (.char 'q') = some (2, 5, false) ∧ keyToMatrix .backspace = some (3, 0, false) ∧
      keyToMatrix (.other 7) = none ∧ keyToMatrix (.char '~') = none := by decide

/-- 95 W5 and the 22-byte file, in its parts. -/
theorem test_tape_file :
    expandByte 0xA5 = [500, 500, 250, 250, 500, 500, 250, 250, 250, 250, 500, 500, 250, 250, 500, 500] ∧
    parseCt2 ([0x43, 0x54, 0x32, 0x00, 0x43, 0x41, 0x00, 0x00, 0x43, 0x42, 0x00, 0x00] ++
      [0x44, 0x41, 0x02, 0x00, 0xA5, 0x80, 0x5A, 0x5A, 0x00, 0x00]) = some [.ca, .cb, .da [0xA5, 0x80]] ∧
    parseCt2 [0x43, 0x54, 0x32, 0x00, 0x44, 0x41, 0x03, 0x00, 0xA5, 0x80] = none := by decide

/-- A tape that plays. -/
def playing (wave : List Nat) : State :=
  State.reset.setTape { State.reset.tape with wave := wave, play := true }

/-- 95 part 2.10: the reads at clocks 1000, 1400, 1501, 2002, 2300 and 2600. -/
theorem test_tape_playback :
    (let s1 := afterRead 0xC010 ((playing [500, 250, 250]).setClock 1000)
    let s2 := afterRead 0xC010 (s1.setClock 1400)
    let s3 := afterRead 0xC010 (s2.setClock 1501)
    let s4 := afterRead 0xC010 (s3.setClock 2002)
    let s5 := afterRead 0xC010 (s4.setClock 2300)
    s1.tape.casin = .high ∧ s1.tape.start = 1000 ∧ s1.tape.armed = 500 ∧ s1.tape.active = true ∧ s2.tape = s1.tape ∧
    s3.tape.casin = .low ∧ s3.tape.head = 1 ∧ s3.tape.start = 1501 ∧ s3.tape.armed = 250 ∧ s4.tape.casin = .high ∧
    s4.tape.head = 2 ∧ s5.tape.casin = .low ∧ s5.tape.head = 3 ∧ s5.tape.play = false ∧ s5.tape.active = false ∧
    s5.out.signals = [.tapeEnd] ∧ readOf 0xC010 (s5.setClock 2600) = 0x00) := by decide

/-- 95 part 2.10: arming makes no sound, an edge does; 2.9: the tape's bit is ORed with the keyboard's. -/
theorem test_tape_sound :
    (let s := (playing [250, 250, 250]).setTape { (playing [250, 250, 250]).tape with sound := true }
    let s1 := afterRead 0xC010 (s.setClock 100)
    let s2 := afterRead 0xC010 (s1.setClock 351)
    s1.out.segments = [] ∧ s2.out.segments = [⟨.low, 351⟩] ∧ s2.snd.line = .high ∧ s2.snd.last = 351) ∧
    readOf 0xC010 (memWrite 0xC010 0x01 (pushKey (.char 'C') false false ((playing [250]).setClock 10))) = 0x88 := by decide

/-- 95 part 2.11, the first, second, third, fourth, fifth and last accesses. -/
theorem test_speaker :
    (let s := { State.reset with snd := ⟨.low, 0, true, true, none⟩, clock := 5000 }
    let s1 := afterRead 0xC020 s
    let s2 := memWrite 0xC03F 0x12 (s1.setClock 5100)
    let s3 := afterRead 0xC030 (s2.setClock 2000000)
    let s4 := afterRead 0xC030 (s3.setClock 3000000)
    let s5 := afterRead 0xC030 (s4.setClock 4000063)
    readOf 0xC020 s = 0x00 ∧ s1.out.segments = [⟨.low, 5000⟩] ∧ s1.out.samples = [⟨0, 80⟩] ∧ s1.snd.last = 5000 ∧
    s2.out.samples.head? = some ⟨120, 1⟩ ∧ s3.out.segments.head? = some ⟨.low, 1994900⟩ ∧ s3.out.samples.length = 2 ∧
    s4.out.samples.head? = some ⟨120, 16000⟩ ∧ s5.out.samples.length = 3 ∧ s5.snd.line = .high) := by decide

/-- 95 part 2.11: INC of 0xC030 makes two accesses at one clock. -/
theorem test_speaker_inc :
    stepGives (boot 0x0800 [0xEE, 0x30, 0xC0] []) (fun t =>
      t.out.segments == [⟨.high, 0⟩, ⟨.low, 0⟩] && t.snd.line == .low && t.clock == 6) := by decide

/-- 95 part 2.12. -/
theorem test_video_lines :
    [0, 1, 7, 8, 63, 64, 128, 191].map (lineAddr .page1) =
      [0x2000, 0x2400, 0x3C00, 0x2080, 0x3F80, 0x2028, 0x2050, 0x3FD0] ∧
    lineAddr .page2 0 = 0xA000 ∧ lineAddr .page2 191 = 0xBFD0 ∧ byteAddr .page1 191 39 = 0x3FF7 := by decide

/-- 95 part 2.12: the seventh column, bit 7 not a pixel, the last byte; W6: violet. -/
theorem test_raster :
    (List.range 15).map (linePixel .mono (0x40 :: List.replicate 39 0x00)) =
      List.replicate 12 0x000000 ++ [0xFFFFFF, 0xFFFFFF, 0x000000] ∧
    (List.range 16).map (linePixel .mono (0x80 :: List.replicate 39 0x00)) = List.replicate 16 0x000000 ∧
    (cellsAt .mono (List.replicate 39 0x00 ++ [0x7F]) 39).toList = List.replicate 14 0xFFFFFF ∧
    linePixel .color [0x55, 0x2A] 0 = 0xDD22DD := by decide

/-- 95 part 2.12: the last byte of the last scanline, in both of its framebuffer rows. -/
theorem test_framebuffer :
    (let fb := drawScanline State.reset.vid.fb 191 (rasterLine .mono (List.replicate 39 0x00 ++ [0x7F]))
    fb.pixel 382 559 = 0xFFFFFF ∧ fb.pixel 383 546 = 0xFFFFFF ∧ fb.pixel 383 545 = 0x000000) := by
  simp only [drawScanline_pixel _ (show 191 < 192 by decide), rasterLine, Fin.getElem_fin, Vector.getElem_ofFn]
  decide

/-! ## Witnesses: concrete states and operands that meet the hypotheses of each obligation together -/

/-- A state the witnesses use: STA $D000 at 0x0800. -/
def sample : State := boot 0x0800 [0x8D, 0x00, 0xD0] []

theorem test_witness_DecodeEncode : WellFormed (.staAbs 0xFFFF) ∧ WellFormed (.unknown 0xFF) ∧ WellFormed .brk := by decide

theorem test_witness_DecodeIsFaithful :
    (decode [0xA9, 0x42, 0x00]).toOption = some (.ldaImm 0x42, [0x00]) ∧
      (decode [0xFF]).toOption = some (.unknown 0xFF, []) := by decide

theorem test_witness_StepRunsDecodedInstruction :
    (let s := sample
    s.power = .on ∧ s.latches = ⟨false, false, false⟩ ∧ s.pc.toNat < 0xC000 ∧ (s.pc + 1).toNat < 0xC000 ∧
    (s.pc + 2).toNat < 0xC000 ∧
    (decode [s.ramAt s.pc.toNat, s.ramAt (s.pc + 1).toNat, s.ramAt (s.pc + 2).toNat]).toOption =
      some (.staAbs 0xD000, [])) ∧
    (let s := bootRam 0xFFFE [0xAD, 0x00, 0x03] []
    s.power = .on ∧ s.latches = ⟨false, false, false⟩ ∧ 0xC100 ≤ s.pc.toNat ∧ s.bankMode = .ram ∧
    0xC100 ≤ (s.pc + 1).toNat ∧ (s.pc + 2).toNat < 0xC000 ∧
    (decode [s.ramAt s.pc.toNat, s.ramAt (s.pc + 1).toNat, s.ramAt (s.pc + 2).toNat]).toOption =
      some (.ldaAbs 0x0300, [])) := by decide

/-- For StepExecutesFetchedInstruction and both clauses of StepNeverStops. -/
theorem test_witness_power : State.reset.power = .on ∧ (State.reset.setPower .off).power = .off := by decide

/-- For InstructionCycles, EveryStep and Writers: instructions and steps that answer a next state. -/
theorem test_witness_next :
    (∃ t, step sample = .next t) ∧ (∃ t, exec .brk sample = .next t) ∧ WellFormed .brk ∧ WellFormed (.aslZp 0xFF) ∧
      WellFormed (.bitImm 0xFF) ∧ (∃ t, exec (.bitImm 0xFF) sample = .next t) ∧ (∃ t, exec (.aslZp 0xFF) sample = .next t) :=
  ⟨⟨_, rfl⟩, ⟨_, rfl⟩, rfl, rfl, rfl, ⟨_, rfl⟩, ⟨_, rfl⟩⟩

/-- For Writers: an instruction that changes a flag, one that changes a register, and a status whose bit 5 is 1. -/
theorem test_witness_Writers :
    stepGives (boot 0x0800 [0xA9, 0x80] []) (fun t => getFlag t.p .n != getFlag State.reset.p .n && t.a != 0x00) ∧
      unusedBit State.reset.p = true ∧ mnemonicOf (.rorZp 0) ∈ ["ASL", "LSR", "ROL", "ROR"] ∧ (Instr.rorZp 0).mode ≠ .acc := by
  decide

/-- For NmiAndIrq: I set and I clear. -/
theorem test_witness_NmiAndIrq :
    getFlag (State.reset.setP 0x24).p .i = true ∧ getFlag State.reset.p .i = false := by decide

theorem test_witness_InterruptCheck :
    State.reset.latches = ⟨false, false, false⟩ ∧
    (let s := State.reset.setLatches ⟨false, true, true⟩
    s.latches = ⟨false, true, true⟩ ∧ getFlag s.p .i = false) ∧
    (State.reset.setLatches ⟨true, true, false⟩).latches = ⟨true, true, false⟩ := by decide

theorem test_witness_RamDevice :
    isRam .rom 0x0000 ∧ isRam .rom 0xBFFF ∧ isRam .ram 0xC100 ∧ isRam .ram 0xFFFF :=
  ⟨.inl (by decide), .inl (by decide), .inr (by decide), .inr (by decide)⟩

theorem test_witness_RomAndOpenBus :
    isRom State.reset.bankMode 0xC100 ∧ isRom State.reset.bankMode 0xFFFF ∧ isOpenBus 0xC040 ∧ isOpenBus 0xC04F ∧
      isOpenBus 0xC058 ∧ isOpenBus 0xC059 ∧ isOpenBus 0xC05C ∧ isOpenBus 0xC05D ∧ isOpenBus 0xC060 ∧ isOpenBus 0xC06F ∧
      isOpenBus 0xC072 ∧ isOpenBus 0xC07F ∧ isOpenBus 0xC08C ∧ isOpenBus 0xC0FF ∧ ¬ isOpenBus 0xC03F ∧ ¬ isOpenBus 0xC071 := by
  refine ⟨⟨by decide, rfl⟩, ⟨by decide, rfl⟩, ?_⟩
  simp [isOpenBus]

/-- For BankSwitch: each address range at its ends, and the ends of the window. -/
theorem test_witness_BankSwitch :
    (∀ addr : Addr, addr = 0xC080 ∨ addr = 0xC08B → 0xC080 ≤ addr.toNat ∧ addr.toNat ≤ 0xC08B ∧
      ∃ target, target = Config.bankswMirrorSelect addr) ∧
    (∃ (addr : Addr) (target : BankMode), addr = 0xC05A ∧ target = .rom) ∧
    (∃ (addr : Addr) (target : BankMode), addr = 0xC05B ∧ target = .ram) ∧
    0xC100 ≤ (0xC100#16).toNat ∧ 0xC100 ≤ (0xFFFF#16).toNat := by
  refine ⟨?_, ⟨_, _, rfl, rfl⟩, ⟨_, _, rfl, rfl⟩, by decide, by decide⟩
  rintro addr (rfl | rfl) <;> exact ⟨by decide, by decide, _, rfl⟩

/-- For AddWithCarry and SubtractWithBorrow: D clear and D set. -/
theorem test_witness_decimal_mode :
    getFlag State.reset.p .d = false ∧ getFlag (State.reset.setP 0x28).p .d = true ∧
      (.adcImm 0x01, .imm 0x01, 2) ∈ adcForms 0x01 0x1234 ∧ (.sbcIzp 0x01, .mem (.izp 0x01), 5) ∈ sbcForms 0x01 0x1234 := by
  decide

/-- For BcdCorrectness: 99 and 99 with a carry, and a difference of each sign. -/
theorem test_witness_BcdCorrectness :
    (9 ≤ 9 ∧ 0 ≤ 9) ∧ (0 : Int) ≤ (10 * 9 + 9 : Nat) - (10 * 9 + 9 : Nat) - (1 - true.toNat : Nat) ∧
      ((10 * 0 + 0 : Nat) - (10 * 9 + 9 : Nat) - (1 - false.toNat : Nat) : Int) < 0 := by decide

/-- For BitTest: a form with an immediate and a form in memory. -/
theorem test_witness_BitTest :
    (.bitImm 0x01, .imm 0x01, 2) ∈ bitForms 0x01 0x1234 ∧ (.bitAbsx 0x1234, .mem (.absx 0x1234), 4) ∈ bitForms 0x01 0x1234 ∧
      Operand.mem (.absx 0x1234) ≠ .imm 0x01 := by decide

theorem test_witness_UnknownOpcodes : (0x02#8) ∈ unknownOpcodes ∧ (0xFF#8) ∈ unknownOpcodes := by decide

/-- For KeyboardPort: the ends of the ranges. -/
theorem test_witness_KeyboardPort :
    0xC000 ≤ (0xC000#16).toNat ∧ (0xC01F#16).toNat ≤ 0xC01F ∧ (0xC00F#16) ≠ 0xC010 ∧ (0xC011#16) ≠ 0xC010 := by decide

/-- For MatrixScan: a held key with no modifier; the value that selects its row, and another. -/
theorem test_witness_MatrixScan :
    (let s := pushKey (.char 'Z') false false State.reset
    s.kb.clear = false ∧ s.kb.shift = false ∧ s.kb.ctrl = false ∧ (0x01#8).toNat = 2 ^ s.kb.row.val ∧
      (0x03#8).toNat ≠ 2 ^ s.kb.row.val) := by decide

theorem test_witness_KeyEvents :
    keyAt 0 1 = some (.char 'B') ∧ keyAt 7 5 = some (.char '?') ∧ 'A' ∈ "ABCDEFGHIJKLMNOPQRSTUVWXYZ".toList ∧
      'Z' ∈ "ABCDEFGHIJKLMNOPQRSTUVWXYZ".toList ∧ '!' ∈ "!\"#$%&/()=-+*^@".toList ∧
      '@' ∈ "!\"#$%&/()=-+*^@".toList ∧ keyToMatrix (.char '~') = none ∧ keyToMatrix (.other 0) = none := by decide

/-- For TapePlayback: not playing; the end of the wave; a half-cycle to arm; one armed, at its duration and one past it. -/
theorem test_witness_TapePlayback :
    State.reset.tape.play = false ∧
    (let t := (playing []).tape
    t.play = true ∧ t.active = false ∧ t.wave.length ≤ t.head) ∧
    (let t := (playing [500]).tape
    t.play = true ∧ t.active = false ∧ t.wave[t.head]? = some 500) ∧
    (let s := afterRead 0xC010 (playing [500])
    let t := s.tape
    t.play = true ∧ t.active = true ∧ (s.setClock 500).clock ≤ t.start + t.armed ∧
      t.start + t.armed < (s.setClock 501).clock) := by decide

/-- For SharedAddress and SpeakerAccess: the ends of the ranges. -/
theorem test_witness_tape_speaker_ranges :
    0xC021 ≤ (0xC021#16).toNat ∧ (0xC02F#16).toNat ≤ 0xC02F ∧ 0xC030 ≤ (0xC030#16).toNat ∧ (0xC03F#16).toNat ≤ 0xC03F := by
  decide

/-- For ScreenAddresses, MonoRaster, ColorRaster and RefreshFrame: the first and the last of each index. -/
theorem test_witness_screen_ranges :
    0 < 192 ∧ 191 < 192 ∧ 0 < 40 ∧ 39 < 40 ∧ 6 < 7 ∧ 1 < 2 ∧ 13 < 14 := by decide

/-- For ColorRaster: a line with a black, a white and a violet byte, and another line that agrees with it where its
hypotheses ask, at a middle byte and at both ends. -/
theorem test_witness_ColorRaster :
    (let line : List Byte := [0x55, 0x2A, 0x00, 0x7F]
    let other : List Byte := [0x55, 0x2A, 0x80, 0x7F]
    line.getD 0 0x00 = 0x55 ∧ line.getD 1 0x00 = 0x2A ∧ line.getD 2 0x00 = 0x00 ∧ line.getD 3 0x00 = 0x7F ∧
    other.getD 3 0x00 = line.getD 3 0x00 ∧ other ≠ line ∧
    (∀ i < 7, (other.getD 2 0x00).getLsbD i = (line.getD 2 0x00).getLsbD i) ∧
    (∀ i < 2, (other.getD 4 0x00).getLsbD i = (line.getD 4 0x00).getLsbD i) ∧
    other.getD 0 0x00 = line.getD 0 0x00 ∧ other.getD 39 0x00 = line.getD 39 0x00) := by decide

/-- For AudioStatus: an end of the address range each, with the audio device away, and with it there but the sound off. -/
theorem test_witness_AudioStatus :
    (0xC030 ≤ (0xC030#16).toNat ∧ (0xC03F#16).toNat ≤ 0xC03F) ∧ State.reset.snd.available = false ∧
    (hostAct (.setAudioAvailable true) State.reset).snd.available = true ∧
    (hostAct (.setAudioAvailable true) State.reset).snd.enabled = false := by decide

theorem test_witness_RefreshByReads : State.reset.vid.scanRow = 0 ∧ State.reset.vid.scanLine = [] := by decide

/-- For HostResets: an image of the right length, and one that is not. -/
theorem test_witness_HostResets :
    (List.replicate 0x4000 (0xEA#8)).length = 0x4000 ∧ ([] : List Byte).length ≠ 0x4000 :=
  ⟨List.length_replicate, by decide⟩

/-- For StepKeepsInvariant and EnvironmentKeepsInvariant: a state in mid-playback that meets the invariant, and steps. -/
def armed : State :=
  { State.reset with
    clock := 900, snd := ⟨.high, 800, true, true, none⟩
    tape := { State.reset.tape with wave := [500], start := 700, active := true, armed := 500, casin := .high, play := true } }

theorem test_witness_StepKeepsInvariant : StateInv armed ∧ ∃ t, step armed = .next t :=
  ⟨⟨Memory.wf_nil _ _, Memory.wf_nil _ _, by decide, fun _ => ⟨rfl, rfl, by decide⟩, by decide, by decide, by decide, by decide,
    by decide⟩,
    ⟨_, rfl⟩⟩

theorem test_witness_Reachable : Reachable State.reset ∧ Reachable (hostAct .assertNmi State.reset) :=
  ⟨.reset, .host _ .reset⟩

theorem test_witness_VideoIsInvisible :
    sameButVideo sample (afterRead 0xC055 (afterRead 0xC050 sample)) ∧ (∃ t, step sample = .next t) ∧
      afterRead 0xC050 sample ≠ sample :=
  ⟨rfl, ⟨_, rfl⟩, by decide⟩

end Sys2Proof.Tests
end

section
/-! PROOF. Every instruction is one of a few operations, each with the flags and the registers it may write: the
inversion lemma `exec_performs`, from which the invariant (O56) and the table of writers (O58) are read off operation by
operation. -/

namespace Sys2Proof.Machine

/-- The update of a byte register. -/
def Reg.set : Reg → State → Byte → State
  | .a => State.setA
  | .x => State.setX
  | .y => State.setY
  | .sp => State.setSp

/-- From status `p` to `q`, every bit but the flags `fs` is as before: `flagsKeptExcept` on two status bytes. -/
def statusKeptExcept (fs : List Flag) (p q : Byte) : Prop :=
  (∀ f, f ∉ fs → getFlag q f = getFlag p f) ∧ unusedBit q = unusedBit p

/-- All the named flags, which PLP and RTI load (10 R24). -/
def Flag.all : List Flag := [.c, .z, .i, .d, .b, .v, .n]

/-- `Performs s fs rs t`: one of the operations of the instruction families leads from `s` to `t`, and `fs` and `rs` are
the flags and the registers it may write. -/
inductive Performs (s : State) : List Flag → List Reg → State → Prop
  | load (r : Reg) (o : Operand) (k : Nat) : Performs s [.n, .z] [r] (loadRegister r.set o k s)
  | transfer (r : Reg) (v : Byte) : Performs s [.n, .z] [r] (transfer r.set v s)
  | loadSp (v : Byte) : Performs s [] [.sp] (tick 2 (s.setSp v))
  | store (m : MemOperand) (v : Byte) (k : Nat) : Performs s [] [] (storeByte m v k s)
  | add (o : Operand) (k : Nat) : Performs s [.n, .v, .z, .c] [.a] (addWithCarry o k s)
  | subtract (o : Operand) (k : Nat) : Performs s [.n, .v, .z, .c] [.a] (subtractWithBorrow o k s)
  | logic (f : Byte → Byte → Byte) (o : Operand) (k : Nat) : Performs s [.n, .z] [.a] (logicalOp f o k s)
  | compare (v : Byte) (o : Operand) (k : Nat) : Performs s [.n, .z, .c] [] (compareWith v o k s)
  | bit {fs : List Flag} {f : Byte → Byte → Byte → Byte} (hf : ∀ a m p, statusKeptExcept fs p (f a m p))
      (o : Operand) (k : Nat) : Performs s fs [] (bitTest f o k s)
  | modify {fs : List Flag} {f : Byte → Byte → Byte × Byte} (hf : ∀ v p, statusKeptExcept fs p (f v p).2)
      (m : MemOperand) (k : Nat) : Performs s fs [] (modifyMemory f m k s)
  | modifyRegister {fs : List Flag} {f : Byte → Byte → Byte × Byte} (hf : ∀ v p, statusKeptExcept fs p (f v p).2)
      (r : Reg) (v : Byte) : Performs s fs [r] (modifyRegister r.set f v s)
  | jump (w : Addr) (k : Nat) : Performs s [] [] (tick k (s.setPc w))
  | jumpThrough (w : Addr) (k : Nat) : Performs s [] [] (jumpThrough w k s)
  | call (w : Addr) : Performs s [] [.sp] (callSubroutine w s)
  | ret : Performs s [] [.sp] (returnFromSubroutine s)
  | branch (c : Bool) (n : Byte) : Performs s [] [] (branchIf c n s)
  | push (v : Byte) : Performs s [] [.sp] (pushByte v s)
  | pull (r : Reg) : Performs s [.n, .z] [r, .sp] (pullRegister r.set s)
  | pullStatus : Performs s Flag.all [.sp] (pullStatus s)
  | flag (f : Flag) (v : Bool) : Performs s [f] [] (writeFlag f v s)
  | enableInterrupts : Performs s [.i] [] (clearInterruptDisable s)
  | nop : Performs s [] [] (tick 2 s)
  | brk : Performs s [.i] [.sp] (softwareInterrupt s)
  | rti : Performs s Flag.all [.sp] (tick 6 (returnFromInterrupt s))
  | unknown (op : Byte) : Performs s [] [] (unknownOpcode op s)

/-! ### The status each flag computation leaves -/

namespace statusKeptExcept

variable {fs : List Flag} {p q : Byte}

theorem refl (fs : List Flag) (p : Byte) : statusKeptExcept fs p p := ⟨fun _ _ => rfl, rfl⟩

theorem setFlag (h : statusKeptExcept fs p q) {f : Flag} (hf : f ∈ fs) (v : Bool) :
    statusKeptExcept fs p (setFlag q f v) := by
  refine ⟨fun g hg => ?_, by rw [setFlag_bit5, h.2]⟩
  have hne : g ≠ f := fun e => hg (e ▸ hf)
  rw [getFlag_setFlag, if_neg hne, h.1 g hg]

theorem setNZ (h : statusKeptExcept fs p q) (hn : .n ∈ fs) (hz : .z ∈ fs) (v : Byte) :
    statusKeptExcept fs p (setNZ v q) :=
  (h.setFlag hn _).setFlag hz _

theorem unusedBit_eq_true (h : statusKeptExcept fs p q) (hp : unusedBit p = true) : unusedBit q = true := h.2.trans hp

end statusKeptExcept

theorem setFlag_kept (f : Flag) (v : Bool) (p : Byte) : statusKeptExcept [f] p (setFlag p f v) :=
  (statusKeptExcept.refl _ p).setFlag (List.mem_singleton_self f) v

section
open statusKeptExcept (refl)
variable (a v m p : Byte)

theorem setNZ_kept : statusKeptExcept [.n, .z] p (setNZ v p) := (refl _ p).setNZ (by decide) (by decide) v

theorem adcResult_kept : statusKeptExcept [.n, .v, .z, .c] p (adcResult a m p).2 :=
  (((refl _ p).setFlag (by decide) _).setFlag (by decide) _).setNZ (by decide) (by decide) _

theorem sbcResult_kept : statusKeptExcept [.n, .v, .z, .c] p (sbcResult a m p).2 :=
  (((refl _ p).setFlag (by decide) _).setFlag (by decide) _).setNZ (by decide) (by decide) _

theorem compareStatus_kept : statusKeptExcept [.n, .z, .c] p (compareStatus v m p) :=
  ((refl _ p).setFlag (by decide) _).setNZ (by decide) (by decide) _

theorem aslResult_kept : statusKeptExcept [.n, .z, .c] p (aslResult v p).2 :=
  ((refl _ p).setFlag (by decide) _).setNZ (by decide) (by decide) _

theorem lsrResult_kept : statusKeptExcept [.n, .z, .c] p (lsrResult v p).2 :=
  ((refl _ p).setFlag (by decide) _).setNZ (by decide) (by decide) _

theorem rolResult_kept : statusKeptExcept [.n, .z, .c] p (rolResult v p).2 :=
  ((refl _ p).setFlag (by decide) _).setNZ (by decide) (by decide) _

theorem rorResult_kept : statusKeptExcept [.n, .z, .c] p (rorResult v p).2 :=
  ((refl _ p).setFlag (by decide) _).setNZ (by decide) (by decide) _

theorem incResult_kept : statusKeptExcept [.n, .z] p (incResult v p).2 := setNZ_kept _ p

theorem decResult_kept : statusKeptExcept [.n, .z] p (decResult v p).2 := setNZ_kept _ p

theorem trbResult_kept : statusKeptExcept [.z] p (trbResult a v p).2 := (refl _ p).setFlag (by decide) _

theorem tsbResult_kept : statusKeptExcept [.z] p (tsbResult a v p).2 := (refl _ p).setFlag (by decide) _

theorem bitImmStatus_kept : statusKeptExcept [.z] p (bitImmStatus a m p) := (refl _ p).setFlag (by decide) _

theorem bitMemStatus_kept : statusKeptExcept [.n, .v, .z] p (bitMemStatus a m p) :=
  (((refl _ p).setFlag (by decide) _).setFlag (by decide) _).setFlag (by decide) _

end

/-! ### Every instruction is one of the operations -/

/-- The shifts and rotates, of which the accumulator form alone writes `A` (10 R20). -/
def shiftMnemonics : List String := ["ASL", "LSR", "ROL", "ROR"]

/-- The table of 10 R20, R21 and R24 lists the instruction among the writers of the flags `fs` and the registers `rs`,
and if it is a shift or rotate that writes `A`, it is the accumulator form. -/
def Listed (i : Instr) (fs : List Flag) (rs : List Reg) : Prop :=
  (∀ f ∈ fs, mnemonicOf i ∈ flagWriters f) ∧ (∀ r ∈ rs, mnemonicOf i ∈ registerWriters r) ∧
    (.a ∈ rs → mnemonicOf i ∈ shiftMnemonics → i.mode = .acc)

/-- The table lists a mnemonic in all its forms; a shift that may write `A` is not one of these. -/
theorem listed {i : Instr} {fs : List Flag} {rs : List Reg} (m : String) (hm : mnemonicOf i = m := by rfl)
    (h : (∀ f ∈ fs, m ∈ flagWriters f) ∧ (∀ r ∈ rs, m ∈ registerWriters r) ∧
      (.a ∈ rs → m ∉ shiftMnemonics) := by decide) : Listed i fs rs := by
  subst hm
  exact ⟨h.1, h.2.1, fun ha hs => absurd hs (h.2.2 ha)⟩

/-- Every instruction completes, by one of the operations, which writes only what the table lists the instruction for. -/
theorem exec_performs (i : Instr) (s : State) :
    ∃ fs rs t, exec i s = .next t ∧ Performs s fs rs t ∧ Listed i fs rs := by
  cases i with
  | ldaImm | ldaZp | ldaZpx | ldaAbs | ldaAbsx | ldaAbsy | ldaIzx | ldaIzy | ldaIzp =>
    exact ⟨_, _, _, rfl, .load .a _ _, listed "LDA"⟩
  | ldxImm | ldxZp | ldxZpy | ldxAbs | ldxAbsy => exact ⟨_, _, _, rfl, .load .x _ _, listed "LDX"⟩
  | ldyImm | ldyZp | ldyZpx | ldyAbs | ldyAbsx => exact ⟨_, _, _, rfl, .load .y _ _, listed "LDY"⟩
  | staZp | staZpx | staAbs | staAbsx | staAbsy | staIzx | staIzy | staIzp =>
    exact ⟨_, _, _, rfl, .store _ _ _, listed "STA"⟩
  | stxZp | stxZpy | stxAbs => exact ⟨_, _, _, rfl, .store _ _ _, listed "STX"⟩
  | styZp | styZpx | styAbs => exact ⟨_, _, _, rfl, .store _ _ _, listed "STY"⟩
  | stzZp | stzZpx | stzAbs | stzAbsx => exact ⟨_, _, _, rfl, .store _ _ _, listed "STZ"⟩
  | tax => exact ⟨_, _, _, rfl, .transfer .x _, listed "TAX"⟩
  | tay => exact ⟨_, _, _, rfl, .transfer .y _, listed "TAY"⟩
  | txa => exact ⟨_, _, _, rfl, .transfer .a _, listed "TXA"⟩
  | tya => exact ⟨_, _, _, rfl, .transfer .a _, listed "TYA"⟩
  | tsx => exact ⟨_, _, _, rfl, .transfer .x _, listed "TSX"⟩
  | txs => exact ⟨_, _, _, rfl, .loadSp _, listed "TXS"⟩
  | adcImm | adcZp | adcZpx | adcAbs | adcAbsx | adcAbsy | adcIzx | adcIzy | adcIzp =>
    exact ⟨_, _, _, rfl, .add _ _, listed "ADC"⟩
  | sbcImm | sbcZp | sbcZpx | sbcAbs | sbcAbsx | sbcAbsy | sbcIzx | sbcIzy | sbcIzp =>
    exact ⟨_, _, _, rfl, .subtract _ _, listed "SBC"⟩
  | cmpImm | cmpZp | cmpZpx | cmpAbs | cmpAbsx | cmpAbsy | cmpIzx | cmpIzy | cmpIzp =>
    exact ⟨_, _, _, rfl, .compare _ _ _, listed "CMP"⟩
  | cpxImm | cpxZp | cpxAbs => exact ⟨_, _, _, rfl, .compare _ _ _, listed "CPX"⟩
  | cpyImm | cpyZp | cpyAbs => exact ⟨_, _, _, rfl, .compare _ _ _, listed "CPY"⟩
  | incZp | incZpx | incAbs | incAbsx => exact ⟨_, _, _, rfl, .modify incResult_kept _ _, listed "INC"⟩
  | decZp | decZpx | decAbs | decAbsx => exact ⟨_, _, _, rfl, .modify decResult_kept _ _, listed "DEC"⟩
  | inx => exact ⟨_, _, _, rfl, .modifyRegister incResult_kept .x _, listed "INX"⟩
  | iny => exact ⟨_, _, _, rfl, .modifyRegister incResult_kept .y _, listed "INY"⟩
  | dex => exact ⟨_, _, _, rfl, .modifyRegister decResult_kept .x _, listed "DEX"⟩
  | dey => exact ⟨_, _, _, rfl, .modifyRegister decResult_kept .y _, listed "DEY"⟩
  | ina => exact ⟨_, _, _, rfl, .modifyRegister incResult_kept .a _, listed "INA"⟩
  | dea => exact ⟨_, _, _, rfl, .modifyRegister decResult_kept .a _, listed "DEA"⟩
  | andImm | andZp | andZpx | andAbs | andAbsx | andAbsy | andIzx | andIzy | andIzp =>
    exact ⟨_, _, _, rfl, .logic _ _ _, listed "AND"⟩
  | oraImm | oraZp | oraZpx | oraAbs | oraAbsx | oraAbsy | oraIzx | oraIzy | oraIzp =>
    exact ⟨_, _, _, rfl, .logic _ _ _, listed "ORA"⟩
  | eorImm | eorZp | eorZpx | eorAbs | eorAbsx | eorAbsy | eorIzx | eorIzy | eorIzp =>
    exact ⟨_, _, _, rfl, .logic _ _ _, listed "EOR"⟩
  | bitImm => exact ⟨_, _, _, rfl, .bit bitImmStatus_kept _ _, listed "BIT"⟩
  | bitZp | bitZpx | bitAbs | bitAbsx => exact ⟨_, _, _, rfl, .bit bitMemStatus_kept _ _, listed "BIT"⟩
  | trbZp | trbAbs => exact ⟨_, _, _, rfl, .modify (trbResult_kept _) _ _, listed "TRB"⟩
  | tsbZp | tsbAbs => exact ⟨_, _, _, rfl, .modify (tsbResult_kept _) _ _, listed "TSB"⟩
  | aslAcc => exact ⟨_, _, _, rfl, .modifyRegister aslResult_kept .a _, by decide, by decide, fun _ _ => rfl⟩
  | aslZp | aslZpx | aslAbs | aslAbsx => exact ⟨_, _, _, rfl, .modify aslResult_kept _ _, listed "ASL"⟩
  | lsrAcc => exact ⟨_, _, _, rfl, .modifyRegister lsrResult_kept .a _, by decide, by decide, fun _ _ => rfl⟩
  | lsrZp | lsrZpx | lsrAbs | lsrAbsx => exact ⟨_, _, _, rfl, .modify lsrResult_kept _ _, listed "LSR"⟩
  | rolAcc => exact ⟨_, _, _, rfl, .modifyRegister rolResult_kept .a _, by decide, by decide, fun _ _ => rfl⟩
  | rolZp | rolZpx | rolAbs | rolAbsx => exact ⟨_, _, _, rfl, .modify rolResult_kept _ _, listed "ROL"⟩
  | rorAcc => exact ⟨_, _, _, rfl, .modifyRegister rorResult_kept .a _, by decide, by decide, fun _ _ => rfl⟩
  | rorZp | rorZpx | rorAbs | rorAbsx => exact ⟨_, _, _, rfl, .modify rorResult_kept _ _, listed "ROR"⟩
  | jmpAbs => exact ⟨_, _, _, rfl, .jump _ _, listed "JMP"⟩
  | jmpInd | jmpIax => exact ⟨_, _, _, rfl, .jumpThrough _ _, listed "JMP"⟩
  | jsr => exact ⟨_, _, _, rfl, .call _, listed "JSR"⟩
  | rts => exact ⟨_, _, _, rfl, .ret, listed "RTS"⟩
  | bcc => exact ⟨_, _, _, rfl, .branch _ _, listed "BCC"⟩
  | bcs => exact ⟨_, _, _, rfl, .branch _ _, listed "BCS"⟩
  | beq => exact ⟨_, _, _, rfl, .branch _ _, listed "BEQ"⟩
  | bne => exact ⟨_, _, _, rfl, .branch _ _, listed "BNE"⟩
  | bmi => exact ⟨_, _, _, rfl, .branch _ _, listed "BMI"⟩
  | bpl => exact ⟨_, _, _, rfl, .branch _ _, listed "BPL"⟩
  | bvc => exact ⟨_, _, _, rfl, .branch _ _, listed "BVC"⟩
  | bvs => exact ⟨_, _, _, rfl, .branch _ _, listed "BVS"⟩
  | bra => exact ⟨_, _, _, rfl, .branch _ _, listed "BRA"⟩
  | pha => exact ⟨_, _, _, rfl, .push _, listed "PHA"⟩
  | phx => exact ⟨_, _, _, rfl, .push _, listed "PHX"⟩
  | phy => exact ⟨_, _, _, rfl, .push _, listed "PHY"⟩
  | php => exact ⟨_, _, _, rfl, .push _, listed "PHP"⟩
  | pla => exact ⟨_, _, _, rfl, .pull .a, listed "PLA"⟩
  | plx => exact ⟨_, _, _, rfl, .pull .x, listed "PLX"⟩
  | ply => exact ⟨_, _, _, rfl, .pull .y, listed "PLY"⟩
  | plp => exact ⟨_, _, _, rfl, .pullStatus, listed "PLP"⟩
  | clc => exact ⟨_, _, _, rfl, .flag _ _, listed "CLC"⟩
  | sec => exact ⟨_, _, _, rfl, .flag _ _, listed "SEC"⟩
  | sei => exact ⟨_, _, _, rfl, .flag _ _, listed "SEI"⟩
  | cld => exact ⟨_, _, _, rfl, .flag _ _, listed "CLD"⟩
  | sed => exact ⟨_, _, _, rfl, .flag _ _, listed "SED"⟩
  | clv => exact ⟨_, _, _, rfl, .flag _ _, listed "CLV"⟩
  | cli => exact ⟨_, _, _, rfl, .enableInterrupts, listed "CLI"⟩
  | nop => exact ⟨_, _, _, rfl, .nop, listed "NOP"⟩
  | brk => exact ⟨_, _, _, rfl, .brk, listed "BRK"⟩
  | rti => exact ⟨_, _, _, rfl, .rti, listed "RTI"⟩
  | unknown => exact ⟨_, _, _, rfl, .unknown _, listed "UNKNOWN"⟩

/-! ### The invariant (O56) -/

namespace StateInv

variable {s : State}

theorem set (h : StateInv s) (r : Reg) (v : Byte) : StateInv (r.set s v) := by
  cases r <;> exact h.congr_registers rfl

/-- A status that keeps bit 5 keeps the invariant. -/
theorem setP_kept (h : StateInv s) {fs : List Flag} {p q : Byte} (hp : unusedBit p = true)
    (hq : statusKeptExcept fs p q) : StateInv (s.setP q) :=
  h.setP (hq.unusedBit_eq_true hp)

theorem unused_setFlag (h : StateInv s) (f : Flag) (v : Bool) : unusedBit (setFlag s.p f v) = true :=
  (setFlag_bit5 s.p f v).trans h.unused

theorem performs (h : StateInv s) {fs : List Flag} {rs : List Reg} {t : State} (hp : Performs s fs rs t) :
    StateInv t := by
  have hl := h.load
  cases hp with
  | load r o k => exact (((hl o).set r _).setP_kept (hl o).unused (setNZ_kept _ _)).tick k
  | transfer r v => exact ((h.set r v).setP_kept h.unused (setNZ_kept v _)).tick 2
  | loadSp v => exact (h.set .sp v).tick 2
  | store m v k => exact (h.store m v).tick k
  | add o k => exact (((hl o).set .a _).setP_kept (hl o).unused (adcResult_kept _ _ _)).tick k
  | subtract o k => exact (((hl o).set .a _).setP_kept (hl o).unused (sbcResult_kept _ _ _)).tick k
  | logic f o k => exact (((hl o).set .a _).setP_kept (hl o).unused (setNZ_kept _ _)).tick k
  | compare v o k => exact ((hl o).setP_kept (hl o).unused (compareStatus_kept v _ _)).tick k
  | bit hf o k => exact ((hl o).setP_kept (hl o).unused (hf _ _ _)).tick k
  | modify hf m k => exact (h.modify m fun v p => (hf v p).2).tick k
  | modifyRegister hf r v => exact ((h.set r _).setP_kept h.unused (hf v _)).tick 2
  | jump w k => exact (h.congr_registers (t := s.setPc w) rfl).tick k
  | jumpThrough w k => exact ((h.read16 w).congr_registers rfl).tick k
  | call w => exact ((h.push16 (s.pc - 1)).congr_registers rfl).tick 6
  | ret => exact (h.pop16.congr_registers rfl).tick 6
  | branch c n =>
    cases c with
    | true => exact (h.congr_registers (t := s.setPc (s.pc + n.signExtend 16)) rfl).tick 3
    | false => exact h.tick 2
  | push v => exact (h.push v).tick 3
  | pull r => exact ((h.pop.set r _).setP_kept h.pop.unused (setNZ_kept _ _)).tick 4
  | pullStatus => exact (h.pop.setP (statusOfByte_bit5 _)).replayIrq.tick 4
  | flag f v => exact (h.setP (h.unused_setFlag _ _)).tick 2
  | enableInterrupts => exact (h.setP (h.unused_setFlag _ _)).replayIrq.tick 2
  | nop => exact h.tick 2
  | brk => exact h.enterInterrupt _ _ _ (h.unused_setFlag _ _)
  | rti => exact h.returnFromInterrupt.tick 6
  | unknown op => exact (h.congr_registers (t := s.emit _) rfl).tick 2

theorem exec (h : StateInv s) {i : Instr} {t : State} (ht : exec i s = .next t) : StateInv t := by
  obtain ⟨_, _, t', ht', hp, -⟩ := exec_performs i s
  obtain rfl : t = t' := Host.Outcome.next.inj (ht.symm.trans ht')
  exact h.performs hp

theorem resetSequence (h : StateInv s) : StateInv (resetSequence s) :=
  ((((((h.set .a 0x00).set .x 0x00).set .y 0x00).setP (by decide)).set .sp 0xFF).read16 _).congr_registers rfl

theorem nmiSequence (h : StateInv s) : StateInv (nmiSequence s) :=
  (h.enterInterrupt _ _ _ h.unused).congr_registers rfl

theorem irqSequence (h : StateInv s) : StateInv (irqSequence s) := by
  unfold Machine.irqSequence
  split
  · exact h.congr_registers rfl
  · exact (h.enterInterrupt _ _ _ (h.unused_setFlag _ _)).congr_registers rfl

theorem of_ite {c : Prop} [Decidable c] {t u : State} (ht : StateInv t) (hu : StateInv u) :
    StateInv (if c then t else u) := by
  split
  · exact ht
  · exact hu

/-- RESET, then NMI, then IRQ: whichever of the three sequences run, each keeps the invariant. -/
theorem interruptCheck (h : StateInv s) : StateInv (interruptCheck s) :=
  have hreset := of_ite (c := s.latches.reset = true) h.resetSequence h
  have hnmi := of_ite hreset.nmiSequence hreset
  of_ite hnmi.irqSequence hnmi

theorem fetchInstr (h : StateInv s) : StateInv (fetchInstr s).2 := by
  unfold Machine.fetchInstr
  simp only
  split
  · exact h.fetch8
  · exact h.fetch8.fetch8
  · exact h.fetch8.fetch8.fetch8

end StateInv

theorem step_of_on {s : State} (h : s.power = .on) :
    step s = exec (fetchInstr (interruptCheck s)).1 (fetchInstr (interruptCheck s)).2 := by
  simp only [step, h]

theorem step_of_off {s : State} (h : s.power = .off) : step s = .fault .poweredOff := by
  simp only [step, h]

/-- Settles O56: the interrupt check, the fetch and the instruction each keep the invariant. -/
theorem stepKeepsInvariant : Obligations.StepKeepsInvariant := by
  intro s t h ht
  cases hp : s.power with
  | off => simp [step_of_off hp] at ht
  | on =>
    rw [step_of_on hp] at ht
    exact h.interruptCheck.fetchInstr.exec ht

/-! ### The state after reset (O55, O10) -/

/-- Settles O55: nothing is listed in either memory, nothing plays, and nothing is drawn. -/
theorem resetMeetsInvariant : Obligations.ResetMeetsInvariant where
  ram_wf := reset_ram_wf
  rom_wf := Memory.wf_nil _ _
  unused := by decide
  tape_ok := by simp [Tape.consistent, State.reset]
  snd_past := Nat.le_refl _
  snd_err := fun _ => rfl
  fb_wf := List.Pairwise.nil
  scan_row := by decide
  scan_col := by decide

/-- Settles O10: every field by its value, and RAM, of which no cell is listed, by its power-on fill. -/
theorem resetState : Obligations.ResetState := by
  have hram : ∀ b : Nat, b < 0x10000 → State.reset.ramAt b =
      if (0x2000 ≤ b ∧ b < 0x4000) ∨ (0xA000 ≤ b ∧ b < 0xC000) then 0xFF else 0x00 := by
    intro b _
    show ramDefault b = _
    simp only [ramDefault, isHiresPage_iff]
  exact ⟨rfl, rfl, rfl, rfl, rfl, rfl, rfl, rfl, rfl, hram, rfl, rfl, rfl, rfl, rfl, rfl, rfl, rfl, rfl, rfl, rfl, rfl,
    rfl, rfl, rfl⟩

/-! ### The writers of the flags and registers (O58) -/

/-- The status of `t` is computed from a status equal to that of `s`. -/
theorem flagsKeptExcept_of_status {fs : List Flag} {s t : State} {p q : Byte} (hs : p = s.p) (ht : t.p = q)
    (h : statusKeptExcept fs p q) : flagsKeptExcept fs s t := by
  subst hs ht
  exact h

theorem flagsKeptExcept_of_eq {s t : State} (h : t.p = s.p) (fs : List Flag) : flagsKeptExcept fs s t :=
  flagsKeptExcept_of_status rfl h (.refl fs s.p)

/-- An operation keeps bit 5 and every flag but those it may write, unless it is one of the two that load a whole status
byte, with bit 5 forced (10 R25). -/
theorem Performs.status {s : State} {fs : List Flag} {rs : List Reg} {t : State} (hp : Performs s fs rs t) :
    flagsKeptExcept fs s t ∨ fs = Flag.all ∧ unusedBit t.p = true := by
  have hl := fun o => load_p o s
  have hpop : (pop s).2.p = s.p := by simp [pop_eq]
  cases hp with
  | load r o k => exact .inl (flagsKeptExcept_of_status (hl o) rfl (setNZ_kept _ _))
  | transfer r v => exact .inl (setNZ_kept v s.p)
  | add o k => exact .inl (flagsKeptExcept_of_status (hl o) rfl (adcResult_kept _ _ _))
  | subtract o k => exact .inl (flagsKeptExcept_of_status (hl o) rfl (sbcResult_kept _ _ _))
  | logic f o k => exact .inl (flagsKeptExcept_of_status (hl o) rfl (setNZ_kept _ _))
  | compare v o k => exact .inl (flagsKeptExcept_of_status (hl o) rfl (compareStatus_kept v _ _))
  | bit hf o k => exact .inl (flagsKeptExcept_of_status (hl o) rfl (hf _ _ _))
  | modify hf m k =>
    obtain ⟨⟨-, hflags, -⟩, -⟩ := modifyMemory_effect m k s (hf _ _).1 (hf _ _).2
    exact .inl hflags
  | modifyRegister hf r v => exact .inl (hf v s.p)
  | pull r => exact .inl (flagsKeptExcept_of_status hpop rfl (setNZ_kept _ _))
  | flag f v => exact .inl (setFlag_kept f v s.p)
  | enableInterrupts => exact .inl (flagsKeptExcept_of_status rfl (replayIrq_p _) (setFlag_kept .i false s.p))
  | brk =>
    have e : (softwareInterrupt s).p = setFlag s.p .i true := by simp [softwareInterrupt, enterInterrupt]
    exact .inl (flagsKeptExcept_of_status rfl e (setFlag_kept .i true s.p))
  | loadSp | jump | nop | unknown => exact .inl (flagsKeptExcept_of_eq rfl _)
  | store m v k => exact .inl (flagsKeptExcept_of_eq (storeByte_effect m v k s).2.1 _)
  | jumpThrough w k => exact .inl (flagsKeptExcept_of_eq (by simp [Machine.jumpThrough]) _)
  | call w => exact .inl (flagsKeptExcept_of_eq (by simp [callSubroutine]) _)
  | ret => exact .inl (flagsKeptExcept_of_eq (by simp [returnFromSubroutine, pop16_eq]) _)
  | branch c n => exact .inl (flagsKeptExcept_of_eq (by cases c <;> rfl) _)
  | push v => exact .inl (flagsKeptExcept_of_eq (by simp [pushByte]) _)
  | pullStatus => exact .inr ⟨rfl, by simp [Machine.pullStatus]⟩
  | rti => exact .inr ⟨rfl, by simp [returnFromInterrupt, pop16_eq]⟩

theorem Reg.reg_set_other {q r : Reg} (h : q ≠ r) (s : State) (v : Byte) : (r.set s v).reg q = s.reg q := by
  revert h
  cases r <;> cases q <;> simp [Reg.set, State.reg]

theorem DevicesOnly.reg {s t : State} (h : DevicesOnly s t) (q : Reg) : t.reg q = s.reg q := by
  unfold DevicesOnly at h
  rw [h]
  rfl

theorem registersKeptExcept_sp {s t : State} (h : t.a = s.a ∧ t.x = s.x ∧ t.y = s.y) :
    registersKeptExcept [.sp] s t := by
  obtain ⟨ha, hx, hy⟩ := h
  intro q hq
  cases q with
  | a => exact ha
  | x => exact hx
  | y => exact hy
  | sp => exact absurd (List.mem_singleton_self _) hq

/-- An operation keeps every register but those it may write. -/
theorem Performs.registers {s : State} {fs : List Flag} {rs : List Reg} {t : State} (hp : Performs s fs rs t) :
    registersKeptExcept rs s t := by
  have one : ∀ {q r : Reg}, q ∉ [r] → q ≠ r := fun h => by simpa using h
  have hl := fun o => (load_devicesOnly o s).reg
  cases hp with
  | load r o k => exact fun q hq => (Reg.reg_set_other (one hq) _ _).trans (hl o q)
  | transfer r v => exact fun q hq => Reg.reg_set_other (one hq) s v
  | modifyRegister hf r v => exact fun q hq => Reg.reg_set_other (one hq) s _
  | loadSp v => exact fun q hq => Reg.reg_set_other (one hq) s v
  | store m v k => exact (storeByte_effect m v k s).1
  | add o k | subtract o k | logic f o k =>
    exact fun q hq => (Reg.reg_set_other (r := .a) (one hq) (Machine.load o s).2 _).trans (hl o q)
  | compare v o k | bit hf o k => exact fun q _ => hl o q
  | modify hf m k =>
    obtain ⟨⟨hregs, -⟩, -⟩ := modifyMemory_effect m k s (hf _ _).1 (hf _ _).2
    exact hregs
  | jump | flag | nop | unknown => exact fun q _ => rfl
  | jumpThrough w k => exact fun q _ => (read16_devicesOnly w s).reg q
  | branch c n => exact fun q _ => by cases c <;> rfl
  | enableInterrupts => exact fun q _ => by cases q <;> simp [clearInterruptDisable, State.reg]
  | call w => exact registersKeptExcept_sp (by simp [callSubroutine])
  | ret => exact registersKeptExcept_sp (by simp [returnFromSubroutine, pop16_eq])
  | push v => exact registersKeptExcept_sp (by simp [pushByte])
  | pull r =>
    rw [pullRegister, pop_eq]
    intro q hq
    simp only [List.mem_cons, List.not_mem_nil, or_false, not_or] at hq
    exact (Reg.reg_set_other hq.1 _ _).trans (Reg.reg_set_other (r := .sp) hq.2 s _)
  | pullStatus => exact registersKeptExcept_sp (by simp [Machine.pullStatus, pop_eq])
  | brk => exact registersKeptExcept_sp (by simp [softwareInterrupt, enterInterrupt])
  | rti => exact registersKeptExcept_sp (by simp [returnFromInterrupt, pop_eq, pop16_eq])

/-- Settles O58: an instruction changes only what its operation may write, and the table lists it for all of that. -/
theorem writers : Obligations.Writers := by
  intro i s t _ ht
  obtain ⟨fs, rs, t', ht', hp, hflags, hregs, hshift⟩ := exec_performs i s
  obtain rfl : t = t' := Host.Outcome.next.inj (ht.symm.trans ht')
  refine ⟨fun f hf => ?_, ?_, fun h5 => ?_, fun r hr => ?_, fun hm hacc => ?_⟩
  · rcases hp.status with hk | ⟨rfl, -⟩
    · exact hflags f (by_contra fun hn => hf (hk.1 f hn))
    · exact hflags f (by cases f <;> decide)
  · rintro n rfl
    have hb := bitImmStatus_kept s.a n s.p
    obtain rfl := Host.Outcome.next.inj ht
    exact ⟨hb.1 .n (by decide), hb.1 .v (by decide)⟩
  · rcases hp.status with hk | ⟨-, h⟩
    · exact hk.2.trans h5
    · exact h
  · exact hregs r (by_contra fun hn => hr (hp.registers r hn))
  · exact hp.registers .a fun ha => hacc (hshift ha hm)

end Sys2Proof.Machine
end

section
/-! PROOF. The memory map (spec 20): RAM, ROM and the unattached addresses, the bank switch and its window, and what any
bus access leaves unchanged. -/

namespace Sys2Proof.Machine

/-! ### RAM, ROM and the open bus (O17, O18) -/

/-- Settles O17: RAM is the one device there, and the bank does not move with a write to it. -/
theorem ramDevice : Obligations.RamDevice := by
  refine ⟨fun s addr v h => ⟨memRead_of_isRam h, ?_, ?_, fun b hb => memWrite_ramAt_other hb⟩,
    fun s b => read_clearedRam b⟩
  · rw [memWrite_of_isRam h, memRead_of_isRam (s := s.writeRam addr.toNat v) h, writeRam_ramAt_same]
  · rw [memWrite_of_isRam h]
    rfl

/-- A read where no device is attached is 0xFF, and changes nothing (20 R51, R61). -/
theorem memRead_openBus {addr : Addr} (h : isOpenBus addr) (s : State) : memRead addr s = (0xFF, s) := by
  simp only [memRead, route_openBus h]

/-- A write where no device is attached changes nothing (20 R52, R61). -/
theorem memWrite_openBus {addr : Addr} (h : isOpenBus addr) (v : Byte) (s : State) : memWrite addr v s = s := by
  simp only [memWrite, route_openBus h, writeDevices]

/-- The RAM under the I/O page is out of the bus's reach (20 R61). -/
theorem memWrite_ramAt_ioPage {b : Nat} (h1 : 0xC000 ≤ b) (h2 : b < 0xC100) (addr : Addr) (v : Byte) (s : State) :
    (memWrite addr v s).ramAt b = s.ramAt b := by
  by_cases hb : b = addr.toNat
  · subst hb
    have hn : ¬ isRam s.bankMode addr := by
      unfold isRam
      omega
    obtain ⟨-, -, hkept⟩ := byteStored_memWrite addr v s
    exact hkept hn
  · exact memWrite_ramAt_other hb

/-- Settles O18: ROM and the open bus by their routes; a write reaches no RAM cell but its own, and has none in the
I/O page. -/
theorem romAndOpenBus : Obligations.RomAndOpenBus :=
  ⟨fun _ _ _ h => ⟨memRead_of_isRom h, memWrite_of_isRom h⟩,
    fun s _ v h => ⟨memRead_openBus h s, memWrite_openBus h v s⟩,
    fun s addr v _ h1 h2 => memWrite_ramAt_ioPage h1 h2 addr v s⟩

/-! ### The bank switch (O19) -/

/-- Switching to the current bank leaves it, so a switch is one write of `bankMode` in every case (20 R66). -/
theorem bankSwitch_eq (t : BankMode) (s : State) : bankSwitch t s = s.setBankMode t := by
  unfold bankSwitch
  split
  · next h => subst h; rfl
  · rfl

/-- `addr` is one of BankSW's addresses, and `t` the bank that 20 R65 and R70 give it. -/
def selectsBank (addr : Addr) (t : BankMode) : Prop :=
  addr = 0xC05A ∧ t = .rom ∨ addr = 0xC05B ∧ t = .ram ∨
    0xC080 ≤ addr.toNat ∧ addr.toNat ≤ 0xC08B ∧ t = Config.bankswMirrorSelect addr

namespace selectsBank

variable {addr : Addr} {t : BankMode}

theorem rom : selectsBank 0xC05A .rom := .inl ⟨rfl, rfl⟩

theorem ram : selectsBank 0xC05B .ram := .inr (.inl ⟨rfl, rfl⟩)

/-- The bus routes such an address to BankSW alone. -/
theorem route_eq (h : selectsBank addr t) (bank : BankMode) : route bank addr = [.bankSw] := by
  refine route_bankSw ?_
  rcases h with ⟨rfl, -⟩ | ⟨rfl, -⟩ | ⟨h1, h2, -⟩
  · exact .inl rfl
  · exact .inr (.inl rfl)
  · exact .inr (.inr ⟨h1, h2⟩)

theorem bankTarget_eq (h : selectsBank addr t) : bankTarget addr = t := by
  rcases h with ⟨rfl, rfl⟩ | ⟨rfl, rfl⟩ | ⟨h1, -, rfl⟩
  · rfl
  · rfl
  · have ha : addr ≠ 0xC05A := by rintro rfl; exact absurd h1 (by decide)
    have hb : addr ≠ 0xC05B := by rintro rfl; exact absurd h1 (by decide)
    rw [bankTarget, if_neg ha, if_neg hb]

/-- A read of it switches the bank and draws a free byte (20 R65, R69). -/
theorem memRead_eq (h : selectsBank addr t) (s : State) :
    memRead addr s = (Config.ioReadValue s.draws, { s with bankMode := t, draws := s.draws + 1 }) := by
  rw [memRead_of_single (h.route_eq _), deviceRead, bankSwRead, h.bankTarget_eq, bankSwitch_eq]
  rfl

/-- A write of it switches the bank, whatever the value (20 R65). -/
theorem memWrite_eq (h : selectsBank addr t) (v : Byte) (s : State) : memWrite addr v s = { s with bankMode := t } := by
  rw [memWrite_of_single (h.route_eq _), deviceWrite, bankSwWrite, h.bankTarget_eq, bankSwitch_eq]
  rfl

/-- After a read of it the bank is the one it selects. -/
theorem memRead_bankMode (h : selectsBank addr t) (s : State) : (memRead addr s).2.bankMode = t := by
  rw [h.memRead_eq]

end selectsBank

section
variable {addr : Addr} (h : 0xC100 ≤ addr.toNat) (s : State)
include h

/-- After a read of 0xC05A the window shows ROM. -/
theorem memRead_window_rom : (memRead addr (memRead 0xC05A s).2).1 = s.romAt (addr.toNat - 0xC000) := by
  rw [memRead_of_isRom ⟨h, selectsBank.rom.memRead_bankMode s⟩]
  exact memRead_romAt _ _ _

/-- After a read of 0xC05B the window shows RAM. -/
theorem memRead_window_ram : (memRead addr (memRead 0xC05B s).2).1 = s.ramAt addr.toNat := by
  rw [memRead_of_isRam (.inr ⟨h, selectsBank.ram.memRead_bankMode s⟩)]
  exact memRead_ramAt _ _ _

/-- After a read of 0xC05B a write in the window goes to RAM. -/
theorem memWrite_window_ram (v : Byte) :
    memWrite addr v (memRead 0xC05B s).2 = (memRead 0xC05B s).2.writeRam addr.toNat v :=
  memWrite_of_isRam (.inr ⟨h, selectsBank.ram.memRead_bankMode s⟩)

/-- In BANK_RAM what is written in the window is read back. -/
theorem memRead_memWrite_window_ram (v : Byte) : (memRead addr (memWrite addr v (memRead 0xC05B s).2)).1 = v := by
  have hb : ((memRead 0xC05B s).2.writeRam addr.toNat v).bankMode = .ram := selectsBank.ram.memRead_bankMode s
  rw [memWrite_window_ram h, memRead_of_isRam (.inr ⟨h, hb⟩), writeRam_ramAt_same]

end

/-- Settles O19: a switch moves the bank and no byte of either memory, so the byte written in BANK_RAM stays behind
the ROM. -/
theorem bankSwitch_holds : Obligations.BankSwitch := by
  refine ⟨fun s addr v t (h : selectsBank addr t) => ⟨h.memRead_eq s, h.memWrite_eq v s⟩, fun s addr v h => ?_⟩
  refine ⟨memRead_memWrite_window_ram h s v, ?_, ?_⟩
  · rw [memRead_window_rom h, memWrite_romAt, memRead_romAt]
  · rw [memRead_window_ram h, memRead_ramAt, memWrite_window_ram h, writeRam_ramAt_same]

/-! ### The frame of a bus access (O20) -/

theorem memRead_registersKept (addr : Addr) (s : State) : registersKeptExcept [] s (memRead addr s).2 :=
  fun r _ => (memRead_devicesOnly addr s).reg r

theorem memWrite_registersKept (addr : Addr) (v : Byte) (s : State) : registersKeptExcept [] s (memWrite addr v s) := by
  intro r _
  cases r with
  | a => exact memWrite_a addr v s
  | x => exact memWrite_x addr v s
  | y => exact memWrite_y addr v s
  | sp => exact memWrite_sp addr v s

theorem memRead_systemKept (addr : Addr) (s : State) : systemKept s (memRead addr s).2 :=
  ⟨memRead_latches addr s, memRead_pendingIrq addr s, memRead_power addr s⟩

theorem memWrite_systemKept (addr : Addr) (v : Byte) (s : State) : systemKept s (memWrite addr v s) :=
  ⟨memWrite_latches addr v s, memWrite_pendingIrq addr v s, memWrite_power addr v s⟩

/-- Settles O20: field by field, a read is `memRead_devicesOnly` and a write is `memWrite_cases`. -/
theorem busAccessFrame : Obligations.BusAccessFrame := fun s addr v =>
  ⟨⟨memRead_registersKept addr s, memRead_p addr s, memRead_pc addr s, memRead_clock addr s, memRead_systemKept addr s,
      memRead_ram addr s, memRead_rom addr s, memRead_fb addr s, memRead_scanRow addr s, memRead_scanLine addr s⟩,
    ⟨memWrite_registersKept addr v s, memWrite_p addr v s, memWrite_pc addr v s, memWrite_clock addr v s,
      memWrite_systemKept addr v s, byteStored_memWrite addr v s, memWrite_fb addr v s, memWrite_scanRow addr v s,
      memWrite_scanLine addr v s⟩⟩

end Sys2Proof.Machine
end

section
/-! PROOF. Decoding and encoding (spec 30): the opcode map is described opcode by opcode in the three formats of 30 R101
(`exists_format_of_wellFormed`, by the constructors of `Instr`), and the decoder format by format
(`OpFormat.Describes`). From these come the two directions of the round trip (O1, O2) and what the opcode byte alone
fixes (O3). -/

namespace Sys2Proof

/-! ### The formats of the opcode map -/

/-- What the opcode map holds for one opcode byte: an instruction with no operand, or one instruction for each 8-bit or
each 16-bit operand (formats F1, F2 and F3 of 30 R101). -/
inductive OpFormat
  | one (i : Instr)
  | two (c : Byte → Instr)
  | three (c : Addr → Instr)

namespace OpFormat

/-- The instruction of a format whose operand field, where it has one, is `n` or `w`. -/
def fill (n : Byte) (w : Addr) : OpFormat → Instr
  | one i => i
  | two c => c n
  | three c => c w

/-- The operand bytes of that instruction, the low byte of a 16-bit operand first (30 R101). -/
def operands (n : Byte) (w : Addr) : OpFormat → List Byte
  | one _ => []
  | two _ => [n]
  | three _ => [loByte w, hiByte w]

/-- The length of a format's instructions, in bytes. -/
def length : OpFormat → Nat
  | one _ => 1
  | two _ => 2
  | three _ => 3

/-- The format says what `assemble` does at opcode `op`, and every instruction of it is well-formed, encodes with that
opcode and the format's operand bytes, and has mode `m`. -/
structure Describes (f : OpFormat) (op : Byte) (m : Mode) : Prop where
  assemble_eq : ∀ n w, assemble op n w = f.fill n w
  opcode_fill : ∀ n w, (f.fill n w).opcode = op
  operandBytes_fill : ∀ n w, (f.fill n w).operandBytes = f.operands n w
  mode_fill : ∀ n w, (f.fill n w).mode = m
  length_mode : m.length = f.length
  wellFormed_fill : ∀ n w, WellFormed (f.fill n w)

end OpFormat

/-- Each of the 78 bytes of 30 R106 stands for its unknown instruction, whatever the operand fields. -/
theorem assemble_unknown {op : Byte} (h : op ∈ unknownOpcodes) (n : Byte) (w : Addr) :
    assemble op n w = .unknown op := by
  have cells : unknownOpcodes.map (fun b => assemble b n w) = unknownOpcodes.map Instr.unknown := rfl
  exact List.map_inj_left.1 cells op h

/-- Every well-formed instruction is in the opcode map, in a format that describes its opcode. The opcode is evaluated
first in each case, so that the map is looked up at a literal byte. -/
theorem exists_format_of_wellFormed {i : Instr} (h : WellFormed i) :
    ∃ (f : OpFormat) (n : Byte) (w : Addr), f.fill n w = i ∧ f.Describes i.opcode i.mode := by
  cases i with
  | unknown op =>
    have hmem : op ∈ unknownOpcodes := List.contains_iff_mem.1 h
    exact ⟨.one (.unknown op), 0, 0, rfl, assemble_unknown hmem, fun _ _ => rfl, fun _ _ => rfl, fun _ _ => rfl, rfl,
      fun _ _ => h⟩
  | tax | tay | txa | tya | tsx | txs | inx | iny | dex | dey | ina | dea | aslAcc | lsrAcc | rolAcc | rorAcc | rts
  | pha | pla | phx | plx | phy | ply | php | plp | clc | sec | cli | sei | cld | sed | clv | nop | brk | rti =>
    dsimp only [Instr.opcode]
    exact ⟨.one _, 0, 0, rfl, fun _ _ => rfl, fun _ _ => rfl, fun _ _ => rfl, fun _ _ => rfl, rfl, fun _ _ => rfl⟩
  | ldaImm n | ldaZp n | ldaZpx n | ldaIzx n | ldaIzy n | ldaIzp n | ldxImm n | ldxZp n | ldxZpy n | ldyImm n
  | ldyZp n | ldyZpx n | staZp n | staZpx n | staIzx n | staIzy n | staIzp n | stxZp n | stxZpy n | styZp n
  | styZpx n | stzZp n | stzZpx n | adcImm n | adcZp n | adcZpx n | adcIzx n | adcIzy n | adcIzp n | sbcImm n
  | sbcZp n | sbcZpx n | sbcIzx n | sbcIzy n | sbcIzp n | cmpImm n | cmpZp n | cmpZpx n | cmpIzx n | cmpIzy n
  | cmpIzp n | cpxImm n | cpxZp n | cpyImm n | cpyZp n | incZp n | incZpx n | decZp n | decZpx n | andImm n
  | andZp n | andZpx n | andIzx n | andIzy n | andIzp n | oraImm n | oraZp n | oraZpx n | oraIzx n | oraIzy n
  | oraIzp n | eorImm n | eorZp n | eorZpx n | eorIzx n | eorIzy n | eorIzp n | bitImm n | bitZp n | bitZpx n
  | trbZp n | tsbZp n | aslZp n | aslZpx n | lsrZp n | lsrZpx n | rolZp n | rolZpx n | rorZp n | rorZpx n | bcc n
  | bcs n | beq n | bne n | bmi n | bpl n | bvc n | bvs n | bra n =>
    dsimp only [Instr.opcode]
    exact ⟨.two _, n, 0, rfl, fun _ _ => rfl, fun _ _ => rfl, fun _ _ => rfl, fun _ _ => rfl, rfl, fun _ _ => rfl⟩
  | ldaAbs w | ldaAbsx w | ldaAbsy w | ldxAbs w | ldxAbsy w | ldyAbs w | ldyAbsx w | staAbs w | staAbsx w
  | staAbsy w | stxAbs w | styAbs w | stzAbs w | stzAbsx w | adcAbs w | adcAbsx w | adcAbsy w | sbcAbs w
  | sbcAbsx w | sbcAbsy w | cmpAbs w | cmpAbsx w | cmpAbsy w | cpxAbs w | cpyAbs w | incAbs w | incAbsx w
  | decAbs w | decAbsx w | andAbs w | andAbsx w | andAbsy w | oraAbs w | oraAbsx w | oraAbsy w | eorAbs w
  | eorAbsx w | eorAbsy w | bitAbs w | bitAbsx w | trbAbs w | tsbAbs w | aslAbs w | aslAbsx w | lsrAbs w
  | lsrAbsx w | rolAbs w | rolAbsx w | rorAbs w | rorAbsx w | jmpAbs w | jmpInd w | jmpIax w | jsr w =>
    dsimp only [Instr.opcode]
    exact ⟨.three _, 0, w, rfl, fun _ _ => rfl, fun _ _ => rfl, fun _ _ => rfl, fun _ _ => rfl, rfl, fun _ _ => rfl⟩

/-- Every opcode byte is the opcode of a well-formed instruction, so the opcode map is described at each of them
(30 R100, R107). -/
theorem exists_format (op : Byte) : ∃ f m, OpFormat.Describes f op m := by
  have assigned : ∀ b : Byte, (assemble b 0 0).opcode = b ∧ WellFormed (assemble b 0 0) := by decide
  obtain ⟨hop, hwf⟩ := assigned op
  obtain ⟨f, n, w, -, hf⟩ := exists_format_of_wellFormed hwf
  exact ⟨f, _, hop ▸ hf⟩

namespace OpFormat.Describes

variable {f : OpFormat} {op : Byte} {m : Mode} (h : f.Describes op m)
include h

theorem encode_fill (n : Byte) (w : Addr) : encode (f.fill n w) = op :: f.operands n w := by
  rw [encode, h.opcode_fill, h.operandBytes_fill]

theorem length_fill (n : Byte) (w : Addr) : (f.fill n w).length = f.length := by
  rw [Instr.length, h.mode_fill, h.length_mode]

theorem opcodeLength_eq : opcodeLength op = f.length := by
  rw [opcodeLength, h.assemble_eq, h.length_fill]

/-- The decoder reads an instruction of the format from its encoding. -/
theorem decode_operands (n : Byte) (w : Addr) (rest : List Byte) :
    decode (op :: (f.operands n w ++ rest)) = .ok (f.fill n w, rest) := by
  have hlen := h.opcodeLength_eq
  cases f with
  | one i => exact (decode_one hlen rest).trans (by rw [h.assemble_eq]; rfl)
  | two c => exact (decode_two hlen n rest).trans (by rw [h.assemble_eq]; rfl)
  | three c =>
    refine (decode_three hlen (loByte w) (hiByte w) rest).trans ?_
    rw [word_hiByte_loByte, h.assemble_eq]
    rfl

/-- What the decoder accepts begins with the operand bytes of the format. -/
theorem exists_operands_of_decode {bytes rest : List Byte} {i : Instr} (hd : decode (op :: bytes) = .ok (i, rest)) :
    ∃ n w, bytes = f.operands n w ++ rest := by
  have hlen := h.opcodeLength_eq
  cases f with
  | one i =>
    rw [decode_one hlen] at hd
    cases hd
    exact ⟨0, 0, rfl⟩
  | two c =>
    rcases bytes with _ | ⟨n, bytes⟩
    · simp [decode, hlen, length] at hd
    · rw [decode_two hlen] at hd
      cases hd
      exact ⟨n, 0, rfl⟩
  | three c =>
    rcases bytes with _ | ⟨l, _ | ⟨u, bytes⟩⟩
    · simp [decode, hlen, length] at hd
    · simp [decode, hlen, length] at hd
    · rw [decode_three hlen] at hd
      cases hd
      exact ⟨0, word u l, by simp [operands]⟩

end OpFormat.Describes

/-! ### Decoding and encoding (O1, O2) -/

theorem decode_encode {i : Instr} (h : WellFormed i) (rest : List Byte) :
    decode (encode i ++ rest) = .ok (i, rest) := by
  obtain ⟨f, n, w, hi, hf⟩ := exists_format_of_wellFormed h
  have hd := hf.decode_operands n w rest
  rwa [← List.cons_append, ← hf.encode_fill, hi] at hd

/-- Settles O1: by the format of the instruction's opcode. -/
theorem decodeEncode : Obligations.DecodeEncode := fun _ rest h => decode_encode h rest

/-- Settles O2: the bytes read are the encoding of an instruction of the opcode's format, which the decoder gives back
from them. -/
theorem decodeIsFaithful : Obligations.DecodeIsFaithful := by
  intro bytes i rest hd
  cases bytes with
  | nil => simp [decode] at hd
  | cons op bytes =>
    obtain ⟨f, m, hf⟩ := exists_format op
    obtain ⟨n, w, rfl⟩ := hf.exists_operands_of_decode hd
    have hread := (hf.decode_operands n w rest).symm.trans hd
    obtain rfl : f.fill n w = i := congrArg Prod.fst (Except.ok.inj hread)
    exact ⟨hf.wellFormed_fill n w, by rw [hf.encode_fill, List.cons_append]⟩

/-! ### What the opcode byte fixes (O3) -/

/-- An instruction is unknown exactly when its opcode is one of the 78 bytes of 30 R106. -/
theorem eq_unknown_iff {i : Instr} (h : WellFormed i) : i = .unknown i.opcode ↔ i.opcode ∈ unknownOpcodes := by
  obtain ⟨f, n, w, hi, hf⟩ := exists_format_of_wellFormed h
  constructor
  · intro he
    rw [he] at h
    exact List.contains_iff_mem.1 h
  · intro hmem
    rw [← assemble_unknown hmem n w, hf.assemble_eq, hi]

/-- The first operand bytes of a byte sequence, read as the operand of the format. -/
theorem OpFormat.operands_append_drop (f : OpFormat) (n1 n2 : Byte) (rest : List Byte) :
    f.operands n1 (word n2 n1) ++ (n1 :: n2 :: rest).drop (f.length - 1) = n1 :: n2 :: rest := by
  cases f <;> simp [operands, length]

/-- Settles O3: the mode and the length are those of the opcode's format. -/
theorem opcodeDeterminesInstruction : Obligations.OpcodeDeterminesInstruction := by
  intro op
  obtain ⟨f, m, hf⟩ := exists_format op
  refine ⟨m, fun n1 n2 rest => ⟨f.fill n1 (word n2 n1), ?_, hf.opcode_fill _ _, hf.mode_fill _ _, ?_⟩⟩
  · have hd := hf.decode_operands n1 (word n2 n1) ((n1 :: n2 :: rest).drop (f.length - 1))
    rwa [f.operands_append_drop, ← hf.length_fill n1 (word n2 n1)] at hd
  · have hunknown := eq_unknown_iff (hf.wellFormed_fill n1 (word n2 n1))
    rw [hf.opcode_fill] at hunknown
    have hlen := (f.fill n1 (word n2 n1)).length_mem
    refine ⟨by omega, by omega, hunknown, fun hmem => ?_⟩
    rw [hunknown.2 hmem]
    rfl

/-! ### The encodings the spec spells out (O4) -/

/-- Settles O4: the decoder runs on each of the words. -/
theorem specEncodings : Obligations.SpecEncodings :=
  ⟨rfl, rfl, rfl, rfl, rfl, rfl, rfl, rfl, rfl, rfl, rfl, rfl, rfl, rfl⟩

end Sys2Proof
end

section
/-! PROOF. The addressing modes (spec 40): the model's effective address, on bit vectors, is the number of 40 R123 to
R131 (`toNat_effectiveAddress`), and every use of a memory operand is a bus access of that address. -/

namespace Sys2Proof.Machine

/-! ### The effective address as a number -/

theorem toNat_zeroPage_add (n i : Byte) : (zeroPage (n + i)).toNat = (n.toNat + i.toNat) % 256 := by
  rw [toNat_zeroPage, BitVec.toNat_add]

theorem toNat_indexed (w : Addr) (i : Byte) : (indexed w i).toNat = (w.toNat + i.toNat) % 65536 := by
  rw [indexed, BitVec.toNat_add, BitVec.toNat_setWidth_of_le (by decide)]

/-- A pointer's high byte is at the next zero-page address modulo 256 (40 R129). -/
theorem toNat_readPointer (z : Byte) (s : State) : (readPointer z s).1.toNat = s.pointerAt z.toNat := by
  rw [readPointer_eq, toNat_word, BitVec.toNat_add]
  rfl

theorem toNat_effectiveAddress (m : MemOperand) (s : State) : (effectiveAddress m s).1.toNat = eaNumber m s := by
  cases m with
  | zp n => exact toNat_zeroPage n
  | zpx n => exact toNat_zeroPage_add n s.x
  | zpy n => exact toNat_zeroPage_add n s.y
  | abs w => rfl
  | absx w => exact toNat_indexed w s.x
  | absy w => exact toNat_indexed w s.y
  | izx n => exact (toNat_readPointer (n + s.x) s).trans (by rw [BitVec.toNat_add]; rfl)
  | izy n => exact (toNat_indexed _ s.y).trans (by rw [toNat_readPointer]; rfl)
  | izp n => exact toNat_readPointer n s

theorem ofNat_eaNumber (m : MemOperand) (s : State) : BitVec.ofNat 16 (eaNumber m s) = (effectiveAddress m s).1 := by
  rw [← toNat_effectiveAddress, BitVec.ofNat_toNat, BitVec.setWidth_eq]

theorem eaNumber_lt (m : MemOperand) (s : State) : eaNumber m s < 65536 :=
  toNat_effectiveAddress m s ▸ (effectiveAddress m s).1.isLt

/-! ### The accesses of an operand (O21) -/

/-- Settles O21: the effective address is its number, mode by mode, and the operand's accesses are those of `load_mem`,
`store_eq` and `modify_eq` at it. -/
theorem operandAccess : Obligations.OperandAccess := by
  intro m s v f
  rw [ofNat_eaNumber]
  have hea : effectiveAddress m s = ((effectiveAddress m s).1, s) := Prod.ext rfl (effectiveAddress_state m s)
  exact ⟨hea, eaNumber_lt m s, rfl, load_mem m s, store_eq m v s, modify_eq m f s⟩

end Sys2Proof.Machine
end

section
/-! PROOF. Loads, stores and register transfers (spec 41): every form is its family's operation at the operand and the
cycles its table lists, and the operation's effect is said once, for any operand. -/

namespace Sys2Proof.Machine

/-! ### Loads (O23) -/

/-- A load of `A`, `X` or `Y`, for any operand and cycle count (41 R140 to R142). -/
theorem loadRegister_effect {r : Reg} (hr : r ≠ .sp) (o : Operand) (k : Nat) (s : State) :
    let t := loadRegister r.set o k s
    t.reg r = (load o s).1 ∧ nzOf (t.reg r) t ∧ readEffect [r] [.n, .z] o k s t := by
  have hreg : (loadRegister r.set o k s).reg r = (load o s).1 := by cases r <;> rfl
  have hp : (loadRegister r.set o k s).p = setNZ (load o s).1 (load o s).2.p := by cases r <;> rfl
  have hnz : nzOf (load o s).1 (loadRegister r.set o k s) := nzOf_setNZ hp
  have hflags : flagsKeptExcept [.n, .z] s (loadRegister r.set o k s) :=
    flagsKeptExcept_of_status (load_p o s) hp (setNZ_kept _ _)
  refine ⟨hreg, hreg ▸ hnz, readEffect_intro ?_ (Performs.load r o k).registers hflags⟩
  cases r with
  | a | x | y => rfl
  | sp => exact absurd rfl hr

/-- A table of forms, each a load of `r`, meets the statement of its loads. -/
theorem loadForms_effect {forms : List (Instr × Operand × Nat)} {r : Reg} (hr : r ≠ .sp) {s : State}
    (h : ∀ f ∈ forms, exec f.1 s = .next (loadRegister r.set f.2.1 f.2.2 s)) :
    ∀ f ∈ forms, ∃ t, exec f.1 s = .next t ∧ t.reg r = (load f.2.1 s).1 ∧ nzOf (t.reg r) t ∧
      readEffect [r] [.n, .z] f.2.1 f.2.2 s t :=
  fun f hf => ⟨_, h f hf, loadRegister_effect hr f.2.1 f.2.2 s⟩

section
variable (n : Byte) (w : Addr) (s : State)

/-- Row by row of the table of 41 R140. -/
theorem exec_ldaForms : ∀ f ∈ ldaForms n w, exec f.1 s = .next (loadRegister State.setA f.2.1 f.2.2 s) :=
  List.forall_iff_forall_mem.1 ⟨rfl, rfl, rfl, rfl, rfl, rfl, rfl, rfl, rfl⟩

/-- Row by row of the table of 41 R141. -/
theorem exec_ldxForms : ∀ f ∈ ldxForms n w, exec f.1 s = .next (loadRegister State.setX f.2.1 f.2.2 s) :=
  List.forall_iff_forall_mem.1 ⟨rfl, rfl, rfl, rfl, rfl⟩

/-- Row by row of the table of 41 R142. -/
theorem exec_ldyForms : ∀ f ∈ ldyForms n w, exec f.1 s = .next (loadRegister State.setY f.2.1 f.2.2 s) :=
  List.forall_iff_forall_mem.1 ⟨rfl, rfl, rfl, rfl, rfl⟩

end

/-- Settles O23: every form is a load of its register, whose effect is `loadRegister_effect`. -/
theorem loads : Obligations.Loads := fun s n w =>
  ⟨loadForms_effect (r := .a) (by decide) (exec_ldaForms n w s),
    loadForms_effect (r := .x) (by decide) (exec_ldxForms n w s),
    loadForms_effect (r := .y) (by decide) (exec_ldyForms n w s)⟩

/-! ### Stores (O24) -/

/-- A table of forms, each a store of `v`, meets the statement of its stores. -/
theorem storeForms_effect {forms : List (Instr × MemOperand × Nat)} {v : Byte} {s : State}
    (h : ∀ f ∈ forms, exec f.1 s = .next (storeByte f.2.1 v f.2.2 s)) :
    ∀ f ∈ forms, ∃ t, exec f.1 s = .next t ∧ storeEffect f.2.1 v f.2.2 s t :=
  fun f hf => ⟨_, h f hf, storeByte_effect f.2.1 v f.2.2 s⟩

section
variable (n : Byte) (w : Addr) (s : State)

/-- Row by row of the table of 41 R143. -/
theorem exec_staForms : ∀ f ∈ staForms n w, exec f.1 s = .next (storeByte f.2.1 s.a f.2.2 s) :=
  List.forall_iff_forall_mem.1 ⟨rfl, rfl, rfl, rfl, rfl, rfl, rfl, rfl⟩

/-- Row by row of the table of 41 R144. -/
theorem exec_stxForms : ∀ f ∈ stxForms n w, exec f.1 s = .next (storeByte f.2.1 s.x f.2.2 s) :=
  List.forall_iff_forall_mem.1 ⟨rfl, rfl, rfl⟩

/-- Row by row of the table of 41 R145. -/
theorem exec_styForms : ∀ f ∈ styForms n w, exec f.1 s = .next (storeByte f.2.1 s.y f.2.2 s) :=
  List.forall_iff_forall_mem.1 ⟨rfl, rfl, rfl⟩

/-- Row by row of the table of 41 R146. -/
theorem exec_stzForms : ∀ f ∈ stzForms n w, exec f.1 s = .next (storeByte f.2.1 0x00 f.2.2 s) :=
  List.forall_iff_forall_mem.1 ⟨rfl, rfl, rfl, rfl⟩

end

/-- Settles O24: every form is a store of its byte, whose effect is `storeByte_effect`. -/
theorem stores : Obligations.Stores := fun s n w =>
  ⟨storeForms_effect (exec_staForms n w s), storeForms_effect (exec_stxForms n w s),
    storeForms_effect (exec_styForms n w s), storeForms_effect (exec_stzForms n w s)⟩

/-! ### Register transfers (O25) -/

/-- A transfer writes its register, N and Z, and takes 2 cycles (41 R147 to R151). -/
theorem transfer_effect {i : Instr} {set : State → Byte → State} {v : Byte} {s : State}
    (h : exec i s = .next (transfer set v s)) :
    ∃ p', exec i s = .next (tick 2 ((set s v).setP p')) ∧ nzFrom v s.p p' :=
  ⟨setNZ v s.p, h, nzFrom_setNZ v s.p⟩

/-- Settles O25: five are `transfer` of their registers; TXS writes `S` alone. -/
theorem transfers : Obligations.Transfers := fun _ =>
  ⟨transfer_effect (i := .tax) (set := State.setX) rfl, transfer_effect (i := .tay) (set := State.setY) rfl,
    transfer_effect (i := .txa) (set := State.setA) rfl, transfer_effect (i := .tya) (set := State.setA) rfl,
    transfer_effect (i := .tsx) (set := State.setX) rfl, rfl⟩

end Sys2Proof.Machine
end

section
/-! PROOF. Arithmetic, comparison, increment and decrement (spec 42): every form is its family's operation at the operand
and the cycles its table lists; what the operation writes to the register and to the status are the numbers of the
flag lemmas (`adcResult_binary`, `compareStatus_flags` and their like). -/

namespace Sys2Proof.Machine

/-- What ADC and SBC share: the byte `f` computes from `A`, the operand and the status goes to `A`, and its status to
`P`. `exec_adcForms` and `exec_sbcForms` tie it to the instructions. -/
def accumulate (f : Byte → Byte → Byte → Byte × Byte) (o : Operand) (cycles : Nat) (s : State) : State :=
  let m := load o s
  let r := f m.2.a m.1 m.2.p
  tick cycles ((m.2.setA r.1).setP r.2)

/-! ### The forms of the families -/

section
variable (n : Byte) (w : Addr) (s : State)

/-- Row by row of the table of 42 R161. -/
theorem exec_adcForms : ∀ f ∈ adcForms n w, exec f.1 s = .next (accumulate adcResult f.2.1 f.2.2 s) :=
  List.forall_iff_forall_mem.1 ⟨rfl, rfl, rfl, rfl, rfl, rfl, rfl, rfl, rfl⟩

/-- Row by row of the table of 42 R162. -/
theorem exec_sbcForms : ∀ f ∈ sbcForms n w, exec f.1 s = .next (accumulate sbcResult f.2.1 f.2.2 s) :=
  List.forall_iff_forall_mem.1 ⟨rfl, rfl, rfl, rfl, rfl, rfl, rfl, rfl, rfl⟩

/-- Row by row of the table of 42 R164. -/
theorem exec_cmpForms : ∀ f ∈ cmpForms n w, exec f.1 s = .next (compareWith s.a f.2.1 f.2.2 s) :=
  List.forall_iff_forall_mem.1 ⟨rfl, rfl, rfl, rfl, rfl, rfl, rfl, rfl, rfl⟩

/-- Row by row of the table of 42 R165. -/
theorem exec_cpxForms : ∀ f ∈ cpxForms n w, exec f.1 s = .next (compareWith s.x f.2.1 f.2.2 s) :=
  List.forall_iff_forall_mem.1 ⟨rfl, rfl, rfl⟩

/-- Row by row of the table of 42 R166. -/
theorem exec_cpyForms : ∀ f ∈ cpyForms n w, exec f.1 s = .next (compareWith s.y f.2.1 f.2.2 s) :=
  List.forall_iff_forall_mem.1 ⟨rfl, rfl, rfl⟩

/-- Row by row of the table of 42 R167. -/
theorem exec_incForms : ∀ f ∈ incForms n w, exec f.1 s = .next (modifyMemory incResult f.2.1 f.2.2 s) :=
  List.forall_iff_forall_mem.1 ⟨rfl, rfl, rfl, rfl⟩

/-- Row by row of the table of 42 R168. -/
theorem exec_decForms : ∀ f ∈ decForms n w, exec f.1 s = .next (modifyMemory decResult f.2.1 f.2.2 s) :=
  List.forall_iff_forall_mem.1 ⟨rfl, rfl, rfl, rfl⟩

end

/-! ### Addition and subtraction (O26, O27) -/

section
variable {f : Byte → Byte → Byte → Byte × Byte} (o : Operand) (k : Nat) (s : State)

@[simp] theorem accumulate_a : (accumulate f o k s).a = (f s.a (load o s).1 s.p).1 := by
  rw [← load_a o s, ← load_p o s]
  rfl

@[simp] theorem accumulate_p : (accumulate f o k s).p = (f s.a (load o s).1 s.p).2 := by
  rw [← load_a o s, ← load_p o s]
  rfl

/-- An operation that writes `A` and the flags `fs` leaves everything else as the operand's reads do. -/
theorem accumulate_effect {fs : List Flag} (hf : ∀ a m p, statusKeptExcept fs p (f a m p).2) :
    readEffect [.a] fs o k s (accumulate f o k s) := by
  have hregs : registersKeptExcept [.a] s (accumulate f o k s) := fun q hq =>
    (Reg.reg_set_other (r := .a) (by simpa using hq) (load o s).2 _).trans ((load_devicesOnly o s).reg q)
  exact readEffect_intro rfl hregs (flagsKeptExcept_of_status rfl (accumulate_p o k s) (hf _ _ _))

end

/-- Settles O26: every form writes the byte and the status of `adcResult`, whose N and Z are those of its byte. -/
theorem addWithCarry_holds : Obligations.AddWithCarry := by
  rintro s n w ⟨i, o, k⟩ hf
  refine ⟨_, exec_adcForms n w s _ hf, accumulate_effect o k s adcResult_kept, nzOf_setNZ rfl, ?_⟩
  simp only [accumulate_a, accumulate_p]
  exact ⟨adcResult_v _ _ _, fun hd => adcResult_binary hd _ _, fun hd => adcResult_decimal hd _ _⟩

/-- Settles O27: every form writes the byte and the status of `sbcResult`, whose N and Z are those of its byte. -/
theorem subtractWithBorrow_holds : Obligations.SubtractWithBorrow := by
  rintro s n w ⟨i, o, k⟩ hf
  refine ⟨_, exec_sbcForms n w s _ hf, accumulate_effect o k s sbcResult_kept, nzOf_setNZ rfl, ?_⟩
  simp only [accumulate_a, accumulate_p]
  exact ⟨sbcResult_v _ _ _, fun hd => sbcResult_binary hd _ _, fun hd => sbcResult_decimal hd _ _⟩

/-! ### Decimal arithmetic on valid BCD (O28) -/

section
variable {h l : Nat}

/-- The byte of two decimal digits is valid BCD. -/
theorem validBcd_digits (hh : h ≤ 9) (hl : l ≤ 9) : validBcd (BitVec.ofNat 8 (16 * h + l)) = true := by
  simp only [validBcd, BitVec.toNat_ofNat, Bool.and_eq_true, decide_eq_true_eq]
  omega

/-- The byte of two decimal digits stands for their number. -/
theorem bcd_digits (hh : h ≤ 9) (hl : l ≤ 9) : bcd (BitVec.ofNat 8 (16 * h + l)) = 10 * h + l := by
  simp only [bcd, BitVec.toNat_ofNat]
  omega

end

theorem encBcd_eq (n : Nat) : encBcd n = BitVec.ofNat 8 (16 * (n / 10) + n % 10) := by
  rw [encBcd, Nat.mul_comm]

theorem toNat_borrow (c : Bool) : (!c).toNat = 1 - c.toNat := by cases c <;> rfl

section
variable {a m : Byte} (ha : validBcd a = true) (hm : validBcd m = true) (c : Bool)
include ha hm

/-- P-BCD-ADD (42 R163). -/
theorem decAdd_valid :
    decAdd a m c = (encBcd ((bcd a + bcd m + c.toNat) % 100), decide (100 ≤ bcd a + bcd m + c.toNat)) := by
  simp [decAdd, ha, hm]

/-- P-BCD-SUB (42 R163) where there is no borrow. -/
theorem decSub_valid_of_le (h : bcd m + (1 - c.toNat) ≤ bcd a) :
    decSub a m c = (encBcd (bcd a - (bcd m + (1 - c.toNat))), true) := by
  rw [← toNat_borrow] at h ⊢
  simp [decSub, ha, hm, h]

/-- P-BCD-SUB (42 R163) where there is a borrow. -/
theorem decSub_valid_of_lt (h : bcd a < bcd m + (1 - c.toNat)) :
    decSub a m c = (encBcd (bcd a + 100 - (bcd m + (1 - c.toNat))), false) := by
  rw [← toNat_borrow] at h ⊢
  simp [decSub, ha, hm, Nat.not_le.2 h]

end

/-- Settles O28: both operands are valid BCD, and stand for the numbers of their digits. -/
theorem bcdCorrectness : Obligations.BcdCorrectness := by
  intro h l h' l' c hh hl hh' hl' a m sum diff
  have ha : validBcd a = true := validBcd_digits hh hl
  have hm : validBcd m = true := validBcd_digits hh' hl'
  have ea : bcd a = 10 * h + l := bcd_digits hh hl
  have em : bcd m = 10 * h' + l' := bcd_digits hh' hl'
  refine ⟨?_, fun hd => ?_, fun hd => ?_⟩
  · rw [decAdd_valid ha hm, encBcd_eq, ea, em]
  · have hn : bcd a - (bcd m + (1 - c.toNat)) = diff.toNat := by omega
    rw [decSub_valid_of_le ha hm c (by omega), hn, encBcd_eq]
  · have hn : bcd a + 100 - (bcd m + (1 - c.toNat)) = (diff + 100).toNat := by omega
    rw [decSub_valid_of_lt ha hm c (by omega), hn, encBcd_eq]

/-! ### Comparison (O29) -/

/-- A comparison of the register value `v`, for any operand and cycle count (42 R164 to R166). -/
theorem compareWith_effect (v : Byte) (o : Operand) (k : Nat) (s : State) :
    comparedTo v (load o s).1 (compareWith v o k s) ∧ readEffect [] [.n, .z, .c] o k s (compareWith v o k s) := by
  obtain ⟨hc, hz, hn, -⟩ := compareStatus_flags v (load o s).1 (load o s).2.p
  have hflags : flagsKeptExcept [.n, .z, .c] s (compareWith v o k s) :=
    flagsKeptExcept_of_status (load_p o s) rfl (compareStatus_kept v _ _)
  exact ⟨⟨hc, hz, hn⟩, readEffect_intro rfl (Performs.compare v o k).registers hflags⟩

/-- A table of forms, each a comparison of `v`, meets the statement of its comparisons. -/
theorem compareForms_effect {forms : List (Instr × Operand × Nat)} {v : Byte} {s : State}
    (h : ∀ f ∈ forms, exec f.1 s = .next (compareWith v f.2.1 f.2.2 s)) :
    ∀ f ∈ forms, ∃ t, exec f.1 s = .next t ∧ comparedTo v (load f.2.1 s).1 t ∧
      readEffect [] [.n, .z, .c] f.2.1 f.2.2 s t :=
  fun f hf => ⟨_, h f hf, compareWith_effect v f.2.1 f.2.2 s⟩

/-- Settles O29: every form is a comparison of its register, whose effect is `compareWith_effect`. -/
theorem compares : Obligations.Compares := fun s n w =>
  ⟨compareForms_effect (exec_cmpForms n w s), compareForms_effect (exec_cpxForms n w s),
    compareForms_effect (exec_cpyForms n w s)⟩

/-! ### Increment and decrement (O30) -/

theorem toNat_increment (v : Byte) : (v + 1).toNat = (v.toNat + 1) % 256 := by
  rw [BitVec.toNat_add]
  rfl

/-- Taking 1 is adding 255 modulo 256. -/
theorem toNat_decrement (v : Byte) : (v - 1).toNat = (v.toNat + 255) % 256 := by
  rw [BitVec.toNat_sub, Nat.add_comm]
  rfl

/-- A table of forms, each a read-modify-write by an operation that sets N and Z from its byte `g v` and no other flag
(42 R167, R168). -/
theorem modifyNZForms_effect {forms : List (Instr × MemOperand × Nat)} {g : Byte → Byte} {s : State}
    (h : ∀ f ∈ forms, exec f.1 s = .next (modifyMemory (fun v p => (g v, setNZ (g v) p)) f.2.1 f.2.2 s)) {d : Nat}
    (hg : ∀ v, (g v).toNat = (v.toNat + d) % 256) :
    ∀ f ∈ forms, ∃ t v, exec f.1 s = .next t ∧ v.toNat = ((operandByte f.2.1 s).toNat + d) % 256 ∧ nzOf v t ∧
      modifyEffect [.n, .z] f.2.1 v f.2.2 s t := by
  rintro ⟨i, m, k⟩ hf
  have hk := setNZ_kept (g (operandByte m s)) s.p
  obtain ⟨heffect, hp⟩ := modifyMemory_effect (f := fun v p => (g v, setNZ (g v) p)) m k s hk.1 hk.2
  exact ⟨_, _, h _ hf, hg _, nzOf_setNZ hp, heffect⟩

/-- Settles O30: a memory form is a read-modify-write; a register form leaves what a transfer of the new byte to the
register leaves. -/
theorem incrementDecrement : Obligations.IncrementDecrement :=
  ⟨fun s n w => ⟨modifyNZForms_effect (exec_incForms n w s) toNat_increment,
      modifyNZForms_effect (exec_decForms n w s) toNat_decrement⟩,
    fun s => ⟨s.x + 1, s.y + 1, s.x - 1, s.y - 1, s.a + 1, s.a - 1,
      ⟨toNat_increment _, toNat_increment _, toNat_increment _, toNat_decrement _, toNat_decrement _, toNat_decrement _⟩,
      transfer_effect (i := .inx) (set := State.setX) rfl, transfer_effect (i := .iny) (set := State.setY) rfl,
      transfer_effect (i := .dex) (set := State.setX) rfl, transfer_effect (i := .dey) (set := State.setY) rfl,
      transfer_effect (i := .ina) (set := State.setA) rfl, transfer_effect (i := .dea) (set := State.setA) rfl⟩⟩

end Sys2Proof.Machine
end

section
/-! PROOF. Logic, bit tests, shifts and rotates (spec 43): every form is its family's operation at the operand and the
cycles its table lists, and the operation's effect is said once, for any operand. -/

namespace Sys2Proof.Machine

/-! ### AND, ORA and EOR (O31) -/

section
variable (n : Byte) (w : Addr) (s : State)

/-- Row by row of the table of 43 R180. -/
theorem exec_andForms : ∀ f ∈ andForms n w, exec f.1 s = .next (logicalOp BitVec.and f.2.1 f.2.2 s) :=
  List.forall_iff_forall_mem.1 ⟨rfl, rfl, rfl, rfl, rfl, rfl, rfl, rfl, rfl⟩

/-- Row by row of the table of 43 R181. -/
theorem exec_oraForms : ∀ f ∈ oraForms n w, exec f.1 s = .next (logicalOp BitVec.or f.2.1 f.2.2 s) :=
  List.forall_iff_forall_mem.1 ⟨rfl, rfl, rfl, rfl, rfl, rfl, rfl, rfl, rfl⟩

/-- Row by row of the table of 43 R182. -/
theorem exec_eorForms : ∀ f ∈ eorForms n w, exec f.1 s = .next (logicalOp BitVec.xor f.2.1 f.2.2 s) :=
  List.forall_iff_forall_mem.1 ⟨rfl, rfl, rfl, rfl, rfl, rfl, rfl, rfl, rfl⟩

end

section
variable (g : Byte → Byte → Byte) (o : Operand) (k : Nat) (s : State)

@[simp] theorem logicalOp_a : (logicalOp g o k s).a = g s.a (load o s).1 := by
  rw [← load_a o s]
  rfl

/-- A logical operation, for any operand and cycle count, writes `A`, N and Z alone. -/
theorem logicalOp_effect :
    readEffect [.a] [.n, .z] o k s (logicalOp g o k s) ∧ nzOf (logicalOp g o k s).a (logicalOp g o k s) := by
  have hflags : flagsKeptExcept [.n, .z] s (logicalOp g o k s) :=
    flagsKeptExcept_of_status (load_p o s) rfl (setNZ_kept _ _)
  exact ⟨readEffect_intro rfl (Performs.logic g o k).registers hflags, nzOf_setNZ rfl⟩

end

/-- A table of forms, each a logical operation that works bit by bit as `b`. -/
theorem logicForms_effect {forms : List (Instr × Operand × Nat)} {g : Byte → Byte → Byte} {s : State}
    (h : ∀ f ∈ forms, exec f.1 s = .next (logicalOp g f.2.1 f.2.2 s)) {b : Bool → Bool → Bool}
    (hb : ∀ x y k, (g x y).getLsbD k = b (x.getLsbD k) (y.getLsbD k)) :
    ∀ f ∈ forms, ∃ t, exec f.1 s = .next t ∧ readEffect [.a] [.n, .z] f.2.1 f.2.2 s t ∧ nzOf t.a t ∧
      ∀ k < 8, t.a.getLsbD k = b (s.a.getLsbD k) ((load f.2.1 s).1.getLsbD k) := by
  rintro ⟨i, o, k⟩ hf
  obtain ⟨heffect, hnz⟩ := logicalOp_effect g o k s
  exact ⟨_, h _ hf, heffect, hnz, fun j _ => by rw [logicalOp_a, hb]⟩

/-- Settles O31: every form is a logical operation, whose effect is `logicalOp_effect`; the three work bit by bit. -/
theorem logicalOperations : Obligations.LogicalOperations := fun s n w =>
  ⟨logicForms_effect (exec_andForms n w s) fun _ _ _ => BitVec.getLsbD_and,
    logicForms_effect (exec_oraForms n w s) fun _ _ _ => BitVec.getLsbD_or,
    logicForms_effect (exec_eorForms n w s) fun _ _ _ => BitVec.getLsbD_xor⟩

/-! ### BIT (O32) -/

section
variable (a m p : Byte)

/-- BIT of a memory byte: Z from the and, N and V from the byte itself. -/
theorem bitMemStatus_flags :
    (getFlag (bitMemStatus a m p) .z = true ↔ a &&& m = 0x00) ∧ getFlag (bitMemStatus a m p) .n = m.getLsbD 7 ∧
      getFlag (bitMemStatus a m p) .v = m.getLsbD 6 := by
  simp [bitMemStatus]

theorem bitImmStatus_z : getFlag (bitImmStatus a m p) .z = true ↔ a &&& m = 0x00 := by
  simp [bitImmStatus]

end

theorem statusKeptExcept.mono {fs gs : List Flag} {p q : Byte} (h : statusKeptExcept fs p q) (hsub : fs ⊆ gs) :
    statusKeptExcept gs p q :=
  ⟨fun f hf => h.1 f fun hfs => hf (hsub hfs), h.2⟩

/-- The immediate form is the first row of the table of 43 R183. -/
theorem exec_bitImm (n : Byte) (s : State) : exec (.bitImm n) s = .next (bitTest bitImmStatus (.imm n) 2 s) := rfl

/-- Every other row of the table of 43 R183 has its operand in memory. -/
theorem exec_bitMemForms (n : Byte) (w : Addr) (s : State) : ∀ f ∈ (bitForms n w).tail,
    exec f.1 s = .next (bitTest bitMemStatus f.2.1 f.2.2 s) ∧ f.2.1 ≠ .imm n :=
  List.forall_iff_forall_mem.1 ⟨⟨rfl, nofun⟩, ⟨rfl, nofun⟩, ⟨rfl, nofun⟩, ⟨rfl, nofun⟩⟩

/-- A bit test, for any operand and cycle count, writes the status alone. -/
theorem bitTest_effect {fs : List Flag} {f : Byte → Byte → Byte → Byte}
    (hf : ∀ a m p, statusKeptExcept fs p (f a m p)) (o : Operand) (k : Nat) (s : State) :
    readEffect [] fs o k s (bitTest f o k s) ∧ (bitTest f o k s).p = f s.a (load o s).1 s.p := by
  have hp : (bitTest f o k s).p = f s.a (load o s).1 s.p := by
    rw [← load_a o s, ← load_p o s]
    rfl
  exact ⟨readEffect_intro rfl (Performs.bit hf o k).registers (flagsKeptExcept_of_status rfl hp (hf _ _ _)), hp⟩

/-- Settles O32: the immediate form writes Z alone; a memory form writes the flags of `bitMemStatus_flags`. -/
theorem bitTest_holds : Obligations.BitTest := by
  intro s n w f hf
  rcases List.mem_cons.1 hf with rfl | hf
  · have hkept := fun a m p => (bitImmStatus_kept a m p).mono (gs := [.n, .v, .z]) (by decide)
    obtain ⟨heffect, hp⟩ := bitTest_effect hkept (.imm n) 2 s
    obtain ⟨hflags, -⟩ := bitImmStatus_kept s.a n s.p
    refine ⟨_, exec_bitImm n s, heffect, ?_⟩
    rw [hp]
    exact ⟨bitImmStatus_z _ _ _, fun _ => ⟨hflags .n (by decide), hflags .v (by decide)⟩, fun h => absurd rfl h⟩
  · obtain ⟨hexec, himm⟩ := exec_bitMemForms n w s f hf
    obtain ⟨heffect, hp⟩ := bitTest_effect bitMemStatus_kept f.2.1 f.2.2 s
    obtain ⟨hz, hnv⟩ := bitMemStatus_flags s.a (load f.2.1 s).1 s.p
    refine ⟨_, hexec, heffect, ?_⟩
    rw [hp]
    exact ⟨hz, fun h => absurd h himm, fun _ => hnv⟩

/-! ### TRB and TSB (O33) -/

section
variable (n : Byte) (w : Addr) (s : State)

/-- Row by row of the table of 43 R184. -/
theorem exec_trbForms : ∀ f ∈ trbForms n w, exec f.1 s = .next (modifyMemory (trbResult s.a) f.2.1 f.2.2 s) :=
  List.forall_iff_forall_mem.1 ⟨rfl, rfl⟩

/-- Row by row of the table of 43 R185. -/
theorem exec_tsbForms : ∀ f ∈ tsbForms n w, exec f.1 s = .next (modifyMemory (tsbResult s.a) f.2.1 f.2.2 s) :=
  List.forall_iff_forall_mem.1 ⟨rfl, rfl⟩

end

/-- The byte TRB writes back has the bits of `A` cleared. -/
theorem trbResult_bit (a v p : Byte) {k : Nat} (hk : k < 8) :
    (trbResult a v p).1.getLsbD k = (v.getLsbD k && !a.getLsbD k) := by
  have hones : (0xFF : Byte).getLsbD k = true := by interval_cases k <;> rfl
  rw [trbResult, BitVec.getLsbD_and, BitVec.getLsbD_xor, hones, Bool.xor_true]

/-- The byte TSB writes back has the bits of `A` set. -/
theorem tsbResult_bit (a v p : Byte) (k : Nat) : (tsbResult a v p).1.getLsbD k = (v.getLsbD k || a.getLsbD k) :=
  BitVec.getLsbD_or

/-- A table of forms, each a read-modify-write that works bit by bit as `b` of the old byte and `A`, and whose status is
Z from the and of the two (43 R184, R185). -/
theorem testAndModifyForms_effect {forms : List (Instr × MemOperand × Nat)} {f : Byte → Byte → Byte × Byte}
    {s : State} (h : ∀ i ∈ forms, exec i.1 s = .next (modifyMemory f i.2.1 i.2.2 s)) {b : Bool → Bool → Bool}
    (hbit : ∀ v p, ∀ k < 8, (f v p).1.getLsbD k = b (v.getLsbD k) (s.a.getLsbD k))
    (hstatus : ∀ v p, (f v p).2 = setFlag p .z ((s.a &&& v) == 0)) :
    ∀ i ∈ forms, ∃ t v, exec i.1 s = .next t ∧
      (∀ k < 8, v.getLsbD k = b ((operandByte i.2.1 s).getLsbD k) (s.a.getLsbD k)) ∧
      (getFlag t.p .z = true ↔ s.a &&& operandByte i.2.1 s = 0x00) ∧ modifyEffect [.z] i.2.1 v i.2.2 s t := by
  rintro ⟨i, m, k⟩ hi
  obtain ⟨hother, h5⟩ : statusKeptExcept [.z] s.p (f (operandByte m s) s.p).2 := hstatus _ _ ▸ setFlag_kept _ _ _
  obtain ⟨heffect, hp⟩ := modifyMemory_effect m k s hother h5
  refine ⟨_, _, h _ hi, hbit _ _, ?_, heffect⟩
  rw [hp, hstatus]
  simp

/-- Settles O33: every form is a read-modify-write by `trbResult` or `tsbResult`, bit by bit. -/
theorem testAndModifyBits : Obligations.TestAndModifyBits := fun s n w =>
  ⟨testAndModifyForms_effect (b := fun x y => x && !y) (exec_trbForms n w s) (fun v p _ => trbResult_bit s.a v p)
      fun _ _ => rfl,
    testAndModifyForms_effect (exec_tsbForms n w s) (fun v p k _ => tsbResult_bit s.a v p k) fun _ _ => rfl⟩

/-! ### Shifts and rotates (O34) -/

section
variable (n : Byte) (w : Addr) (s : State)

/-- Row by row of the table of 43 R186. -/
theorem exec_aslForms : ∀ f ∈ aslForms n w, exec f.1 s = .next (modifyMemory aslResult f.2.1 f.2.2 s) :=
  List.forall_iff_forall_mem.1 ⟨rfl, rfl, rfl, rfl⟩

/-- Row by row of the table of 43 R187. -/
theorem exec_lsrForms : ∀ f ∈ lsrForms n w, exec f.1 s = .next (modifyMemory lsrResult f.2.1 f.2.2 s) :=
  List.forall_iff_forall_mem.1 ⟨rfl, rfl, rfl, rfl⟩

/-- Row by row of the table of 43 R188. -/
theorem exec_rolForms : ∀ f ∈ rolForms n w, exec f.1 s = .next (modifyMemory rolResult f.2.1 f.2.2 s) :=
  List.forall_iff_forall_mem.1 ⟨rfl, rfl, rfl, rfl⟩

/-- Row by row of the table of 43 R189. -/
theorem exec_rorForms : ∀ f ∈ rorForms n w, exec f.1 s = .next (modifyMemory rorResult f.2.1 f.2.2 s) :=
  List.forall_iff_forall_mem.1 ⟨rfl, rfl, rfl, rfl⟩

end

/-- `f` is a shift: its byte is the number `num` of the old byte and the old carry, its carry is bit `out` of the old
byte, N and Z follow the new byte, and no other flag changes. -/
structure IsShift (f : Byte → Byte → Byte × Byte) (num : Nat → Nat → Nat) (out : Nat) : Prop where
  toNat_eq : ∀ v p, (f v p).1.toNat = num v.toNat (getFlag p .c).toNat
  status_eq : ∀ v p, (f v p).2 = setNZ (f v p).1 (setFlag p .c (v.getLsbD out))
  kept : ∀ v p, statusKeptExcept [.n, .z, .c] p (f v p).2

theorem aslResult_isShift : IsShift aslResult (fun v _ => 2 * v % 256) 7 :=
  ⟨aslResult_toNat, fun _ _ => rfl, aslResult_kept⟩

theorem lsrResult_isShift : IsShift lsrResult (fun v _ => v / 2) 0 :=
  ⟨lsrResult_toNat, fun _ _ => rfl, lsrResult_kept⟩

theorem rolResult_isShift : IsShift rolResult (fun v c => (2 * v + c) % 256) 7 :=
  ⟨rolResult_toNat, fun _ _ => rfl, rolResult_kept⟩

theorem rorResult_isShift : IsShift rorResult (fun v c => v / 2 + 128 * c) 0 :=
  ⟨rorResult_toNat, fun _ _ => rfl, rorResult_kept⟩

namespace IsShift

variable {f : Byte → Byte → Byte × Byte} {num : Nat → Nat → Nat} {out : Nat} (hf : IsShift f num out)
include hf

theorem carry (v p : Byte) : getFlag (f v p).2 .c = v.getLsbD out := by
  simp [hf.status_eq]

/-- The accumulator form writes `A` and the status, in 2 cycles. -/
theorem accumulator_effect {i : Instr} {s : State} (h : exec i s = .next (modifyRegister State.setA f s.a s)) :
    ∃ t, exec i s = .next t ∧ t = { s with a := (f s.a s.p).1, p := t.p, clock := s.clock + 2 } ∧
      nzOf (f s.a s.p).1 t ∧ flagsKeptExcept [.n, .z, .c] s t ∧ getFlag t.p .c = s.a.getLsbD out :=
  ⟨_, h, rfl, nzOf_setNZ (hf.status_eq s.a s.p), hf.kept s.a s.p, hf.carry s.a s.p⟩

/-- A table of memory forms, each a read-modify-write by the shift. -/
theorem memoryForms_effect {forms : List (Instr × MemOperand × Nat)} {s : State}
    (h : ∀ i ∈ forms, exec i.1 s = .next (modifyMemory f i.2.1 i.2.2 s)) :
    ∀ i ∈ forms, ∃ t v, exec i.1 s = .next t ∧
      v.toNat = num (operandByte i.2.1 s).toNat (getFlag s.p .c).toNat ∧ nzOf v t ∧
      getFlag t.p .c = (operandByte i.2.1 s).getLsbD out ∧ modifyEffect [.n, .z, .c] i.2.1 v i.2.2 s t := by
  rintro ⟨i, m, k⟩ hi
  obtain ⟨hother, h5⟩ := hf.kept (operandByte m s) s.p
  obtain ⟨heffect, hp⟩ := modifyMemory_effect m k s hother h5
  exact ⟨_, _, h _ hi, hf.toNat_eq _ _, nzOf_setNZ (hp.trans (hf.status_eq _ _)), hp ▸ hf.carry _ _, heffect⟩

end IsShift

/-- Settles O34: the four are shifts (`IsShift`), of the accumulator or of the byte at the effective address. -/
theorem shifts : Obligations.Shifts := by
  have hasl := aslResult_isShift
  have hlsr := lsrResult_isShift
  have hrol := rolResult_isShift
  have hror := rorResult_isShift
  refine ⟨fun s => ?_, fun s n w => ?_⟩
  · exact ⟨(aslResult s.a s.p).1, (lsrResult s.a s.p).1, (rolResult s.a s.p).1, (rorResult s.a s.p).1,
      ⟨hasl.toNat_eq _ _, hlsr.toNat_eq _ _, hrol.toNat_eq _ _, hror.toNat_eq _ _⟩,
      hasl.accumulator_effect rfl, hlsr.accumulator_effect rfl, hrol.accumulator_effect rfl,
      hror.accumulator_effect rfl⟩
  · exact ⟨hasl.memoryForms_effect (exec_aslForms n w s), hlsr.memoryForms_effect (exec_lsrForms n w s),
      hrol.memoryForms_effect (exec_rolForms n w s), hror.memoryForms_effect (exec_rorForms n w s)⟩

end Sys2Proof.Machine
end

section
/-! PROOF. Jumps, subroutine linkage and branches (spec 44): the model's address arithmetic, on bit vectors, is the
arithmetic modulo 65536 of the rules, and each operation's effect is said once. -/

namespace Sys2Proof.Machine

/-! ### Address arithmetic -/

theorem ofNat_toNat_add_one (w : Addr) : BitVec.ofNat 16 ((w.toNat + 1) % 65536) = w + 1 := by
  apply BitVec.eq_of_toNat_eq
  rw [BitVec.toNat_ofNat, BitVec.toNat_add]
  exact Nat.mod_mod _ _

/-- The address after the one pulled, from its two bytes (44 R204). -/
theorem word_add_one (h l : Byte) : word h l + 1 = BitVec.ofNat 16 ((h.toNat * 256 + l.toNat + 1) % 65536) := by
  rw [← toNat_word, ofNat_toNat_add_one]

/-- Taking 1 is adding 65535 modulo 65536 (44 R203). -/
theorem toNat_sub_one (w : Addr) : (w - 1).toNat = (w.toNat + 65535) % 65536 := by
  rw [BitVec.toNat_sub, Nat.add_comm]
  rfl

/-- Adding a sign-extended displacement is adding its signed value modulo 65536 (44 R205). -/
theorem add_signExtend (w : Addr) (n : Byte) : w + n.signExtend 16 = BitVec.ofInt 16 (w.toNat + n.toInt) := by
  rw [BitVec.ofInt_add, BitVec.ofInt_natCast, BitVec.ofNat_toNat, BitVec.setWidth_eq]
  rfl

/-! ### Jumps (O35) -/

/-- An instruction that jumps through the pointer at `ptr`, for any cycle count (44 R201, R202). -/
theorem jumpThrough_effect {i : Instr} {s : State} {ptr : Addr} {k n : Nat} (h : exec i s = .next (jumpThrough ptr k s))
    (hn : ptr.toNat = n) :
    let lo := memRead (BitVec.ofNat 16 n) s
    let hi := memRead (BitVec.ofNat 16 ((n + 1) % 65536)) lo.2
    ∃ t, exec i s = .next t ∧
      t = { hi.2 with pc := BitVec.ofNat 16 (hi.1.toNat * 256 + lo.1.toNat), clock := s.clock + k } ∧
      registersKeptExcept [] s t ∧ t.p = s.p ∧ systemKept s t ∧ memoryKept s t := by
  subst hn
  rw [BitVec.ofNat_toNat, BitVec.setWidth_eq, ofNat_toNat_add_one]
  refine ⟨_, h, ?_, (Performs.jumpThrough ptr k).registers, ?_, ⟨?_, ?_, ?_⟩, fun b => ⟨?_, ?_⟩⟩
  · rw [← word_eq_ofNat, ← read16_clock ptr s]
    rfl
  all_goals simp [jumpThrough, tick, State.ramAt, State.romAt]

/-- Settles O35: JMP abs writes `PC` alone; the other two jump through a pointer, whose address is `w` or the number of
`w` indexed by `X`. -/
theorem jumps : Obligations.Jumps := fun s w =>
  ⟨rfl, jumpThrough_effect (i := .jmpInd w) rfl rfl, jumpThrough_effect (i := .jmpIax w) rfl (toNat_indexed w s.x)⟩

/-! ### JSR and RTS (O36) -/

/-- JSR changes `S`, `PC`, the clock and RAM (44 R203). -/
theorem callSubroutine_eq (w : Addr) (s : State) :
    callSubroutine w s =
      { s with sp := s.sp - 2, pc := w, clock := s.clock + 6, ram := (callSubroutine w s).ram } := by
  rw [callSubroutine, push16_eq]
  rfl

/-- JSR's stores are those of the push of the return address. -/
theorem callSubroutine_ramAt (w : Addr) (s : State) (b : Nat) :
    (callSubroutine w s).ramAt b = (push16 (s.pc - 1) s).ramAt b := rfl

/-- RTS pulls an address and continues after it (44 R204). -/
theorem returnFromSubroutine_eq (s : State) :
    returnFromSubroutine s =
      { s with
        pc := word (s.ramAt (stackSlot (s.sp + 2))) (s.ramAt (stackSlot (s.sp + 1))) + 1
        sp := s.sp + 2
        clock := s.clock + 6 } := by
  rw [returnFromSubroutine, pop16_eq]
  rfl

/-- RTS after JSR pulls the two bytes that JSR pushed. -/
theorem returnFromSubroutine_callSubroutine (w : Addr) (s : State) :
    returnFromSubroutine (callSubroutine w s) =
      { s with clock := s.clock + 12, ram := (callSubroutine w s).ram } := by
  obtain ⟨hhi, hlo, -⟩ := push16_ramAt (s.pc - 1) s
  have e1 : s.sp - 2 + 1 = s.sp - 1 := by bv_omega
  have e2 : s.sp - 2 + 2 = s.sp := by bv_omega
  have hsp : (callSubroutine w s).sp = s.sp - 2 := by rw [callSubroutine_eq]
  have hpc : s.pc - 1 + 1 = s.pc := by bv_omega
  rw [returnFromSubroutine_eq, hsp, e1, e2, callSubroutine_ramAt, callSubroutine_ramAt, hhi, hlo, word_hiByte_loByte,
    hpc, callSubroutine_eq]

/-- Settles O36: JSR stores what a 16-bit push of `PC - 1` stores, and RTS undoes the rest. -/
theorem subroutineLinkage : Obligations.SubroutineLinkage := by
  refine ⟨fun s w => ?_, fun s => ?_, fun s w => ?_⟩
  · obtain ⟨hhi, hlo, hother⟩ := push16_ramAt (s.pc - 1) s
    rw [hiByte_eq_ofNat, toNat_sub_one] at hhi
    rw [loByte_eq_ofNat, toNat_sub_one] at hlo
    exact ⟨callSubroutine w s, rfl, callSubroutine_eq w s, hhi, hlo, hother⟩
  · rw [← word_add_one, ← returnFromSubroutine_eq]
    rfl
  · obtain ⟨-, -, hother⟩ := push16_ramAt (s.pc - 1) s
    have hu := returnFromSubroutine_callSubroutine w s
    exact ⟨callSubroutine w s, _, rfl, congrArg Host.Outcome.next hu, rfl, hother⟩

/-! ### Branches (O37) -/

/-- A branch, taken or not, changes at most `PC` and the clock (44 R205). -/
theorem branchIf_eq (c : Bool) (n : Byte) (s : State) :
    branchIf c n s =
      if c then { s with pc := BitVec.ofInt 16 (s.pc.toNat + n.toInt), clock := s.clock + 3 }
      else { s with clock := s.clock + 2 } := by
  rw [← add_signExtend]
  rfl

/-- Row by row of the table of 44 R206 to R213: a branch tests that its flag is set, or that it is clear. -/
theorem exec_branchForms (n : Byte) (s : State) :
    ∀ f ∈ branchForms n, exec f.1 s = .next (branchIf (getFlag s.p f.2.1 == f.2.2) n s) := by
  have onSet {i : Instr} {f : Flag} (h : exec i s = .next (branchIf (getFlag s.p f) n s)) :
      exec i s = .next (branchIf (getFlag s.p f == true) n s) := by rwa [beq_true]
  have onClear {i : Instr} {f : Flag} (h : exec i s = .next (branchIf (!getFlag s.p f) n s)) :
      exec i s = .next (branchIf (getFlag s.p f == false) n s) := by rwa [beq_false]
  exact List.forall_iff_forall_mem.1 ⟨onClear rfl, onSet rfl, onSet rfl, onClear rfl, onSet rfl, onClear rfl,
    onClear rfl, onSet rfl⟩

/-- Settles O37: every row of the table is `branchIf` on its flag's value, and BRA is `branchIf` on true. -/
theorem branches : Obligations.Branches := by
  refine fun s n => ⟨fun f hf => ?_, congrArg _ (branchIf_eq true n s)⟩
  rw [exec_branchForms n s f hf, branchIf_eq]
  simp only [beq_iff_eq]

end Sys2Proof.Machine
end

section
/-! PROOF. The stack (spec 45): the rules' page-1 address `0x0100 | S` is the slot `S` designates, Push
and Pop act on that slot, and each push or pull instruction is one of the two with its byte or register and its cycles. -/

namespace Sys2Proof.Machine

/-! ### Push and Pop (O22) -/

/-- The address of 45 R220 and R221 is a stack slot: page 1 has no bit in common with a byte. -/
theorem page1_or_toNat (sp : Byte) : 0x0100 ||| sp.toNat = stackSlot sp :=
  (Nat.two_pow_add_eq_or_of_lt sp.isLt 1).symm

/-- Push changes `S` and RAM alone (45 R220). -/
theorem push_effect (v : Byte) (s : State) : push v s = { s with sp := s.sp - 1, ram := (push v s).ram } := by
  rw [push_eq]
  rfl

/-- Pop after Push returns the byte and undoes the change of `S` (45 R221). -/
theorem pop_push (v : Byte) (s : State) : pop (push v s) = (v, (push v s).setSp s.sp) := by
  rw [pop_eq, push_sp, BitVec.sub_add_cancel, push_ramAt_same]

/-- Settles O22: with `0x0100 | S` read as the slot `S` designates, the clauses are the rules of Push and Pop. -/
theorem stackPrimitives : Obligations.StackPrimitives := by
  intro s v
  rw [← toNat_increment, page1_or_toNat, page1_or_toNat, pop_push]
  refine ⟨⟨push_effect v s, push_ramAt_same v s, fun b hb => push_ramAt_other hb, ?_⟩, pop_eq s, rfl, rfl⟩
  rw [push_sp, toNat_decrement]

/-! ### The push and pull instructions (O38) -/

/-- A register pulled by its setter `set`: the setter of the byte popped, then `P` and the clock (45 R223). -/
theorem pullRegister_eq (set : State → Byte → State) (s : State) :
    let v := s.ramAt (stackSlot (s.sp + 1))
    let t := set { s with sp := s.sp + 1 } v
    pullRegister set s = { t with p := setNZ v s.p, clock := t.clock + 4 } := by
  rw [pullRegister, pop_eq]
  rfl

/-- Settles O38: the pushes are `pushByte` of their byte, and the pulls are `pullRegister` with their register's
setter. -/
theorem pushesAndPulls : Obligations.PushesAndPulls := by
  refine ⟨fun s => ?_, fun s => ?_⟩
  · exact ⟨⟨_, rfl, pushByte_effect s.a s⟩, ⟨_, rfl, pushByte_effect s.x s⟩, ⟨_, rfl, pushByte_effect s.y s⟩,
      ⟨_, rfl, pushByte_effect (s.p ||| 0x30) s⟩⟩
  · exact ⟨_, nzFrom_setNZ _ s.p, congrArg _ (pullRegister_eq State.setA s), congrArg _ (pullRegister_eq State.setX s),
      congrArg _ (pullRegister_eq State.setY s)⟩

end Sys2Proof.Machine
end

section
/-! PROOF. Flag instructions, BRK, RTI and the unknown opcodes (spec 46): the flag writes, the replay of a deferred IRQ,
and the interrupt frame, which RTI takes off the stack as BRK put it there. -/

namespace Sys2Proof.Machine

/-! ### Flag instructions and unknown opcodes (O39, O40) -/

/-- A flag instruction changes `P` and the clock, and in `P` its flag alone (46 R230). -/
theorem writeFlag_effect {i : Instr} {f : Flag} {v : Bool} {s : State} (h : exec i s = .next (writeFlag f v s)) :
    ∃ p', exec i s = .next { s with p := p', clock := s.clock + 2 } ∧ onlyFlagSet f v s.p p' :=
  ⟨_, h, onlyFlagSet_setFlag f v s.p⟩

/-- Settles O39: each is `writeFlag` of its flag and value, and NOP is its 2 cycles. -/
theorem flagInstructions : Obligations.FlagInstructions := fun _ =>
  ⟨writeFlag_effect rfl, writeFlag_effect rfl, writeFlag_effect rfl, writeFlag_effect rfl, writeFlag_effect rfl,
    writeFlag_effect rfl, rfl⟩

/-- An unknown opcode adds its line to the host's log and 2 cycles to the clock (46 R245). -/
theorem unknownOpcode_eq (op : Byte) (s : State) :
    unknownOpcode op s =
      { s with clock := s.clock + 2, out := { s.out with signals := .unknownOpcode op :: s.out.signals } } := rfl

/-- Settles O40: whatever the byte, `unknownOpcode_eq` is all that happens. (The bare name is that of the list.) -/
theorem unknownOpcodes_holds : Obligations.UnknownOpcodes := fun s op _ =>
  congrArg Host.Outcome.next (unknownOpcode_eq op s)

/-! ### The replay of a deferred IRQ (O14) -/

/-- The end of an instruction that replays (60 R316): on a state with I clear and an IRQ deferred, one IRQ is asserted. -/
theorem tick_replayIrq (k : Nat) (s : State) :
    tick k (replayIrq s) =
      if getFlag s.p .i = false ∧ 0 < s.pendingIrq then
        { s with clock := s.clock + k, pendingIrq := s.pendingIrq - 1, latches := { s.latches with irq := true } }
      else { s with clock := s.clock + k } :=
  apply_ite (tick k) _ _ _

/-- CLI has cleared I when it replays, so the count of deferred IRQs alone decides (46 R232). -/
theorem clearInterruptDisable_eq (s : State) :
    clearInterruptDisable s =
      if 0 < s.pendingIrq then
        { s with
          p := setFlag s.p .i false, clock := s.clock + 2, pendingIrq := s.pendingIrq - 1,
          latches := { s.latches with irq := true } }
      else { s with p := setFlag s.p .i false, clock := s.clock + 2 } := by
  have hi : getFlag (setFlag s.p .i false) .i = false := by simp
  rw [clearInterruptDisable, tick_replayIrq]
  simp only [State.setP, hi, true_and]

/-- PLP replays by the I of the byte it pulls (45 R225). -/
theorem pullStatus_eq (s : State) :
    let v := s.ramAt (stackSlot (s.sp + 1))
    pullStatus s =
      if getFlag v .i = false ∧ 0 < s.pendingIrq then
        { s with
          p := statusOfByte v, sp := s.sp + 1, clock := s.clock + 4, pendingIrq := s.pendingIrq - 1,
          latches := { s.latches with irq := true } }
      else { s with p := statusOfByte v, sp := s.sp + 1, clock := s.clock + 4 } := by
  intro v
  rw [pullStatus, pop_eq, tick_replayIrq]
  simp only [State.setP, State.setSp, getFlag_statusOfByte]
  rfl

/-- Settles O14: CLI and PLP each end with the replay, on the status they leave. -/
theorem replayOfDeferredIrqs : Obligations.ReplayOfDeferredIrqs := fun s =>
  ⟨⟨_, onlyFlagSet_setFlag .i false s.p, congrArg Host.Outcome.next (clearInterruptDisable_eq s)⟩,
    congrArg Host.Outcome.next (pullStatus_eq s)⟩

/-! ### BRK (O15) -/

/-- BRK enters the handler at the vector 0xFFFE with the byte after the opcode skipped (46 R240). -/
theorem softwareInterrupt_effect (s : State) :
    softwareInterrupt s =
      { s with
        sp := s.sp - 3, p := s.p ||| 0x04, pc := s.vectorAt 0xFFFE, clock := s.clock + 7,
        ram := (softwareInterrupt s).ram } ∧
      framePushed (s.pc + 1) (s.p ||| 0x30) s (softwareInterrupt s) := by
  obtain ⟨⟨ram, heq⟩, hframe⟩ :=
    enterInterrupt_effect (s.pc + 1) (pushedByBreak s.p) (setFlag s.p .i true) (v := 0xFFFE) rfl (by decide) (by decide) s
  rw [← softwareInterrupt] at heq hframe
  refine ⟨?_, hframe⟩
  rw [heq]
  rfl

/-- Settles O15: the whole effect is `softwareInterrupt_effect`. -/
theorem breakEntersHandler : Obligations.BreakEntersHandler := fun s => ⟨_, rfl, softwareInterrupt_effect s⟩

/-! ### RTI (O16) -/

/-- Returning pulls the status and then the address, with nothing added (46 R241). -/
theorem returnFromInterrupt_eq (s : State) :
    returnFromInterrupt s =
      { s with
        p := statusOfByte (s.ramAt (stackSlot (s.sp + 1)))
        pc := word (s.ramAt (stackSlot (s.sp + 3))) (s.ramAt (stackSlot (s.sp + 2)))
        sp := s.sp + 3 } := by
  have e2 : s.sp + 1 + 1 = s.sp + 2 := by bv_omega
  have e3 : s.sp + 1 + 2 = s.sp + 3 := by bv_omega
  simp only [returnFromInterrupt, pop_eq, pop16_eq, State.setP_sp, State.setSp_sp, e2, e3]
  rfl

/-- Returning where a frame lies on top of the stack takes that frame off: the address and the status pushed come back,
and `S` is as it was before (60 R321). -/
theorem returnFromInterrupt_of_framePushed {ret : Addr} {status : Byte} {s t : State}
    (hframe : framePushed ret status s t) (hsp : t.sp = s.sp - 3) :
    returnFromInterrupt t = { t with p := statusOfByte status, pc := ret, sp := s.sp } := by
  obtain ⟨hhi, hlo, hstatus, -⟩ := hframe
  have e1 : s.sp - 3 + 1 = s.sp - 2 := by bv_omega
  have e2 : s.sp - 3 + 2 = s.sp - 1 := by bv_omega
  have e3 : s.sp - 3 + 3 = s.sp := by bv_omega
  rw [returnFromInterrupt_eq, hsp, e1, e2, e3, hhi, hlo, hstatus, ← hiByte_eq_ofNat, ← loByte_eq_ofNat,
    word_hiByte_loByte]

/-- RTI after BRK continues after the byte that BRK skips, with B and bit 5 set in `P` (46 R240, R241). -/
theorem returnFromInterrupt_softwareInterrupt (s : State) :
    tick 6 (returnFromInterrupt (softwareInterrupt s)) =
      { s with pc := s.pc + 1, p := s.p ||| 0x30, clock := s.clock + 13, ram := (softwareInterrupt s).ram } := by
  obtain ⟨heq, hframe⟩ := softwareInterrupt_effect s
  have hp : statusOfByte (s.p ||| 0x30) = s.p ||| 0x30 := BitVec.or_assoc _ _ _
  rw [returnFromInterrupt_of_framePushed hframe (congrArg State.sp heq), hp, heq]
  rfl

/-- Settles O16: RTI is `returnFromInterrupt` and its cycles, and after BRK it takes off the frame that BRK pushed. (The
bare name is that of the operation.) -/
theorem returnFromInterrupt_holds : Obligations.ReturnFromInterrupt := by
  refine ⟨fun s => ?_, fun s => ?_⟩
  · rw [← word_eq_ofNat]
    exact congrArg (fun t => Host.Outcome.next (tick 6 t)) (returnFromInterrupt_eq s)
  · obtain ⟨-, -, -, -, hother⟩ := softwareInterrupt_effect s
    exact ⟨softwareInterrupt s, _, rfl, congrArg Host.Outcome.next (returnFromInterrupt_softwareInterrupt s), rfl,
      hother⟩

end Sys2Proof.Machine
end

section
/-! PROOF. The keyboard, the tape and the speaker (spec 47): what an access does at each of their addresses, how a key
event acts through `KeyToMatrix`, and one read of the cassette line as arming followed by at most one edge. -/

namespace Sys2Proof.Machine

/-! ### The speaker (O47, O60) -/

/-- A read of the speaker, said whole (47 R275, R278). -/
theorem soundRead_eq (s : State) :
    soundRead s = (Config.ioReadValue s.draws, { speakerToggled s with draws := s.draws + 1 }) := by
  rw [soundRead, soundAccess_eq]
  rfl

section
variable {addr : Addr} (h1 : 0xC030 ≤ addr.toNat) (h2 : addr.toNat ≤ 0xC03F)
include h1 h2

theorem memRead_speaker_range (s : State) :
    memRead addr s = (Config.ioReadValue s.draws, { speakerToggled s with draws := s.draws + 1 }) :=
  (memRead_of_single (route_speaker h1 h2)).trans (soundRead_eq s)

theorem memWrite_speaker_range (v : Byte) (s : State) : memWrite addr v s = speakerToggled s :=
  (memWrite_of_single (route_speaker h1 h2)).trans (soundAccess_eq s)

end

/-- Settles O47: the sixteen addresses route to the speaker alone. -/
theorem speakerAccess : Obligations.SpeakerAccess := fun s _ v h1 h2 =>
  ⟨memRead_speaker_range h1 h2 s, memWrite_speaker_range h1 h2 v s⟩

/-- Nothing is written to an audio sink that is away or switched off (47 R277, R279). -/
theorem speakerSamples_of_silent {sp : Speaker} (h : sp.available = false ∨ sp.enabled = false) (cycles : Nat) :
    speakerSamples sp cycles = [] := by
  refine if_neg ?_
  rintro ⟨-, henabled, havailable⟩
  rcases h with h | h
  · exact Bool.noConfusion (h.symm.trans havailable)
  · exact Bool.noConfusion (h.symm.trans henabled)

theorem Level.flip_ne (l : Level) : l.flip ≠ l := by
  cases l <;> decide

/-- Every access of the speaker flips its line (47 R275). -/
theorem speakerToggled_line_ne (s : State) : (speakerToggled s).snd.line ≠ s.snd.line := Level.flip_ne s.snd.line

/-- The return of the audio device keeps its last error or clears it, as the open parameter has it (47 R279). -/
theorem setAvailable_true (sp : Speaker) :
    ∃ e, (e = sp.lastError ∨ e = none) ∧ sp.setAvailable true = { sp with available := true, lastError := e } := by
  refine ⟨if Config.clearsAudioError then none else sp.lastError, ?_, rfl⟩
  cases Config.clearsAudioError
  · exact .inl rfl
  · exact .inr rfl

/-- Settles O60: a read and a write differ in the counter `draws` alone, and a silent speaker's toggle adds no
sample. -/
theorem audioStatus : Obligations.AudioStatus := by
  refine ⟨fun s b => ⟨rfl, ?_, rfl⟩, fun s addr v h1 h2 hsilent t ht => ?_⟩
  · obtain ⟨e, he, hset⟩ := setAvailable_true s.snd
    exact ⟨e, he, congrArg s.setSnd hset⟩
  · have htoggled : ∃ n, t = { speakerToggled s with draws := n } := by
      rcases ht with rfl | rfl
      · exact ⟨_, congrArg Prod.snd (memRead_speaker_range h1 h2 s)⟩
      · exact ⟨_, memWrite_speaker_range h1 h2 v s⟩
    obtain ⟨n, rfl⟩ := htoggled
    have hsamples : speakerSamples s.snd (s.clock - s.snd.last) ++ s.out.samples = s.out.samples := by
      rw [speakerSamples_of_silent hsilent, List.nil_append]
    exact ⟨hsamples, rfl, speakerToggled_line_ne s, rfl, rfl, rfl, rfl⟩

/-! ### The keyboard at its addresses (O41, O42) -/

/-- A read of the keyboard, said whole (47 R252). -/
theorem keyboardRead_eq (s : State) :
    keyboardRead s = (scanCode s.kb, { s with kb := { s.kb with ctrlQuery := false } }) := by
  rw [keyboardRead, keyboardByte_eq]
  rfl

/-- The tape ignores writes, so at the address it shares with the keyboard too a write is the keyboard's (47 R269). -/
theorem memWrite_keyboard_range {addr : Addr} (h1 : 0xC000 ≤ addr.toNat) (h2 : addr.toNat ≤ 0xC01F) (v : Byte)
    (s : State) : memWrite addr v s = keyboardWrite addr v s := by
  by_cases hshared : addr = 0xC010
  · subst hshared
    rw [memWrite, route_keyboard_tape]
    rfl
  · have hne : addr.toNat ≠ 0xC010 := fun h => hshared (BitVec.eq_of_toNat_eq h)
    exact memWrite_of_single (route_keyboard (.inl ⟨h1, h2, hne⟩))

/-- A write of 0xC000 to 0xC01F sets KBIN (47 R251). -/
theorem memWrite_kbin {addr : Addr} (h1 : 0xC000 ≤ addr.toNat) (h2 : addr.toNat ≤ 0xC01F) (v : Byte) (s : State) :
    memWrite addr v s = { s with kb := { s.kb with kbin := v } } := by
  rw [memWrite_keyboard_range h1 h2, keyboardWrite, if_pos (by simp [h1, h2])]
  rfl

/-- A read of an address that is the keyboard's alone (47 R252). -/
theorem memRead_keyboard {addr : Addr}
    (h : 0xC000 ≤ addr.toNat ∧ addr.toNat ≤ 0xC01F ∧ addr ≠ 0xC010 ∨ addr = 0xC05E ∨ addr = 0xC05F) (s : State) :
    memRead addr s = (scanCode s.kb, { s with kb := { s.kb with ctrlQuery := false } }) := by
  refine (memRead_of_single (route_keyboard ?_)).trans (keyboardRead_eq s)
  rcases h with ⟨h1, h2, hne⟩ | rfl | rfl
  · exact .inl ⟨h1, h2, fun h => hne (BitVec.eq_of_toNat_eq h)⟩
  · exact .inr (.inl rfl)
  · exact .inr (.inr rfl)

/-- Settles O41: a write by the keyboard's own addresses, a read by its route. -/
theorem keyboardPort : Obligations.KeyboardPort := fun s _ v =>
  ⟨fun h1 h2 => memWrite_kbin h1 h2 v s,
    memWrite_of_single (route_keyboard (.inr (.inr rfl))),
    memWrite_of_single (route_keyboard (.inr (.inl rfl))),
    fun h => memRead_keyboard h s⟩

/-- With a key held and no modifier only the matrix term of 47 R252 is left. -/
theorem scanCode_of_unmodified {kb : Keyboard} (hclear : kb.clear = false) (hshift : kb.shift = false)
    (hctrl : kb.ctrl = false) :
    scanCode kb = if kb.kbin.toNat = 2 ^ kb.row.val then BitVec.ofNat 8 (2 ^ kb.col.val) else 0x00 := by
  simp [scanCode, hclear, hshift, hctrl]

/-- Settles O42: the write sets KBIN and the read gives the matrix term at it. -/
theorem matrixScan : Obligations.MatrixScan := by
  intro s v hclear hshift hctrl
  rw [memRead_keyboard (.inl (by decide)), memWrite_kbin (by decide) (by decide)]
  exact scanCode_of_unmodified (kb := { s.kb with kbin := v }) hclear hshift hctrl

/-! ### Key events (O43) -/

/-- A key with a cell makes it the active one, with SHIFT where `KeyToMatrix` asks for it (47 R254). -/
theorem pushKey_of_mapped {k : Key} {r : Fin 8} {c : Fin 6} {sh : Bool} (h : keyToMatrix k = some (r, c, sh))
    (ctrl shift : Bool) (s : State) :
    pushKey k ctrl shift s =
      { s with kb := { s.kb with row := r, col := c, ctrl := ctrl, shift := shift || sh, clear := false } } := by
  simp only [pushKey, h]
  rfl

/-- The same for a key that asks for no SHIFT of its own. -/
theorem pushKey_of_unshifted {k : Key} {r : Fin 8} {c : Fin 6} (h : keyToMatrix k = some (r, c, false))
    (ctrl shift : Bool) (s : State) :
    pushKey k ctrl shift s =
      { s with kb := { s.kb with row := r, col := c, ctrl := ctrl, shift := shift, clear := false } } := by
  rw [pushKey_of_mapped h, Bool.or_false]

/-- A key with no mapping is ignored (47 R254). -/
theorem pushKey_of_unmapped {k : Key} (h : keyToMatrix k = none) (ctrl shift : Bool) (s : State) :
    pushKey k ctrl shift s = s := by
  simp only [pushKey, h]

/-- Keys with the same mapping act alike. -/
theorem pushKey_congr {k k' : Key} (h : keyToMatrix k = keyToMatrix k') (ctrl shift : Bool) (s : State) :
    pushKey k ctrl shift s = pushKey k' ctrl shift s := by
  simp only [pushKey, h]

theorem isAlpha_of_mem_upperCase {ch : Char} (h : ch ∈ "ABCDEFGHIJKLMNOPQRSTUVWXYZ".toList) : ch.isAlpha = true :=
  List.all_eq_true.1 (by decide) ch h

theorem not_mem_symbolKeys_of_isAlpha {ch : Char} (h : ch.isAlpha = true) : ch ∉ symbolKeys := by
  intro hmem
  have hnot : symbolKeys.all (fun c => !c.isAlpha) = true := by decide
  simpa [h] using List.all_eq_true.1 hnot ch hmem

/-- A letter is no symbol, so it is mapped by its upper case (47 R255). -/
theorem keyToMatrix_of_isAlpha {ch : Char} (h : ch.isAlpha = true) :
    keyToMatrix (.char ch) = (cellOf (.char ch.toUpper)).map fun rc => (rc.1, rc.2, false) := by
  have hnone : symbolKeys.findFinIdx? (· == ch) = none := by
    rw [List.findFinIdx?_eq_none_iff]
    intro x hx he
    exact not_mem_symbolKeys_of_isAlpha h (eq_of_beq he ▸ hx)
  show (match symbolKeys.findFinIdx? (· == ch) with | some i => _ | none => _) = _
  rw [hnone]

/-- The two cases of a letter have one mapping. -/
theorem keyToMatrix_toLower {ch : Char} (h : ch.isAlpha = true) :
    keyToMatrix (.char ch.toLower) = keyToMatrix (.char ch) := by
  have hlower : ch.toLower.isAlpha = true := by rwa [Char.isAlpha_toLower_eq_isAlpha]
  rw [keyToMatrix_of_isAlpha hlower, keyToMatrix_of_isAlpha h, Char.toUpper_toLower_eq_toUpper]

/-- Whatever `KEYMAP` is, a symbol maps to the cell of a letter or digit, with SHIFT (47 R255). -/
theorem keyToMatrix_symbolKeys {ch : Char} (h : ch ∈ symbolKeys) :
    ∃ (r : Fin 8) (c : Fin 6), ∃ key ∈ alphanumericKeys,
      keyAt r c = some (.char key) ∧ keyToMatrix (.char ch) = some (r, c, true) := by
  obtain ⟨i, hi⟩ := symbolKeys_index h
  obtain ⟨⟨r, c⟩, hcell, hkey⟩ := alphanumericKeys_cell (Config.keymap i)
  refine ⟨r, c, _, alphanumericKeys_mem (Config.keymap i), hkey, ?_⟩
  rw [keyToMatrix_symbol hi, hcell]
  rfl

/-- Settles O43: each class of keys by its mapping. -/
theorem keyEvents : Obligations.KeyEvents := by
  intro s ctrl shift
  refine ⟨fun r c k hk => pushKey_of_unshifted (keyToMatrix_keyAt hk) ctrl shift s,
    fun ch hch => pushKey_congr (keyToMatrix_toLower (isAlpha_of_mem_upperCase hch)) ctrl shift s,
    pushKey_of_unshifted (k := .backspace) (r := 3) (c := 0) (by decide) ctrl shift s, fun ch hch => ?_,
    fun k hk => pushKey_of_unmapped hk ctrl shift s, fun _ => rfl, by decide, rfl⟩
  obtain ⟨r, c, key, hmem, hkey, hmap⟩ := keyToMatrix_symbolKeys hch
  refine ⟨r, c, key, hmem, hkey, ?_⟩
  rw [← Bool.or_true shift]
  exact pushKey_of_mapped hmap ctrl shift s

/-! ### The length of the expanded tape (O44) -/

/-- A bit is two half-cycles (47 R261). -/
theorem length_expandBit (b : Bool) : (expandBit b).length = 2 := by
  cases b <;> rfl

/-- A byte is sixteen half-cycles (47 R261). -/
theorem length_expandByte (b : Byte) : (expandByte b).length = 16 := by
  simp [expandByte, length_expandBit]

/-- A CA header tone (47 R261). -/
theorem length_expandChunk_ca : (expandChunk .ca).length = 1000 := by
  rw [expandChunk, List.length_flatten, List.map_replicate, List.sum_replicate]
  rfl

/-- A CB header tone with its two half-cycles on each side (47 R261). -/
theorem length_expandChunk_cb : (expandChunk .cb).length = 68 := by
  simp [expandChunk, Config.cbCycles]

/-- A DA chunk is sixteen half-cycles a byte (47 R261). -/
theorem length_expandChunk_da (bytes : List Byte) : (expandChunk (.da bytes)).length = 16 * bytes.length := by
  simp [expandChunk, List.length_flatMap, length_expandByte, Nat.mul_comm]

theorem length_expandWave_cons (c : Chunk) (rest : List Chunk) :
    (expandWave (c :: rest)).length = (expandChunk c).length + (expandWave rest).length := by
  simp [expandWave]

/-- Settles O44, by induction on the chunks. -/
theorem tapeWaveLength : Obligations.TapeWaveLength := by
  intro chunks
  induction chunks with
  | nil => rfl
  | cons c rest ih =>
    rw [length_expandWave_cons, ih, List.countP_cons, List.countP_cons, List.map_cons, List.sum_cons]
    cases c with
    | ca => simp +arith [length_expandChunk_ca]
    | cb => simp +arith [length_expandChunk_cb]
    | da bytes => simp +arith [length_expandChunk_da, Nat.mul_add]

/-! ### Playback (O45) -/

/-- A half-cycle already armed stays as it is (47 R265 step 1). -/
theorem tapeArm_of_active {s : State} (h : s.tape.active = true) : tapeArm s = s := if_pos h

/-- With nothing armed and the wave over, the tape ends (47 R265 step 1). -/
theorem tapeArm_of_end {s : State} (hactive : s.tape.active = false) (h : s.tape.wave[s.tape.head]? = none) :
    tapeArm s = tapeEnded s := by
  simp only [tapeArm, hactive, h]
  rfl

/-- With nothing armed the half-cycle at the playhead is (47 R265 step 1). -/
theorem tapeArm_of_next {s : State} {d : Nat} (hactive : s.tape.active = false)
    (h : s.tape.wave[s.tape.head]? = some d) :
    tapeArm s = { s with tape := { s.tape with start := s.clock, casin := .high, armed := d, active := true } } := by
  simp only [tapeArm, hactive, h]
  rfl

/-- An edge past the end of the wave ends the tape, any other arms the next half-cycle (47 R265 step 2). -/
theorem tapeEdge_eq (s : State) :
    tapeEdge s =
      (let edge : Tape := { s.tape with casin := s.tape.casin.flip, head := s.tape.head + 1, start := s.clock }
      match s.tape.wave[s.tape.head + 1]? with
        | none => tapeEnded { s with tape := edge }
        | some d => { s with tape := { edge with armed := d } }) := rfl

theorem tapeEdge_sound (s : State) : (tapeEdge s).tape.sound = s.tape.sound := by
  simp only [tapeEdge]
  cases s.tape.wave[s.tape.head + 1]? <;> rfl

/-- No edge while nothing is armed, or while no more than the armed duration has passed (47 R265 step 2). -/
theorem tapeAdvance_of_not_due {s : State} (h : s.tape.active = true → s.clock - s.tape.start ≤ s.tape.armed) :
    tapeAdvance s = s := by
  refine if_neg fun hdue => ?_
  simp only [Bool.and_eq_true, decide_eq_true_eq] at hdue
  exact Nat.not_lt.2 (h hdue.1) hdue.2

/-- One edge once more than the armed duration has passed, with tape sound heard by a bus read of the speaker (47 R265
steps 2, 3; 20 R54). -/
theorem tapeAdvance_of_due {s : State} (hactive : s.tape.active = true)
    (h : s.tape.armed < s.clock - s.tape.start) :
    tapeAdvance s = if s.tape.sound = true then (memRead 0xC030 (tapeEdge s)).2 else tapeEdge s := by
  rw [tapeAdvance, if_pos (by simp [hactive, h]), memRead_speaker, ← tapeEdge_sound s]

/-- The byte read is CASIN as the read leaves it (47 R265). -/
theorem tapeReadCasin_fst (s : State) : (tapeReadCasin s).1 = casinByte (tapeReadCasin s).2.tape.casin := rfl

/-- A read of the cassette line while the tape does not play (47 R265). -/
theorem tapeReadCasin_of_stopped {s : State} (h : s.tape.play = false) : (tapeReadCasin s).2 = s := by
  simp [tapeReadCasin, h]

/-- A read of the cassette line while the tape plays (47 R265). -/
theorem tapeReadCasin_of_playing {s : State} (h : s.tape.play = true) :
    (tapeReadCasin s).2 = tapeAdvance (tapeArm s) := by
  simp [tapeReadCasin, h]

/-- The cassette line is the tape's port at 0xC010 (47 R265). -/
theorem deviceRead_casin (s : State) : deviceRead .tape 0xC010 s = tapeReadCasin s := by
  rw [deviceRead, tapeRead, if_pos rfl]

/-- Settles O45: arming at the same instant leaves no time for an edge, and a half-cycle armed before gives one when
its duration is over. -/
theorem tapePlayback : Obligations.TapePlayback := by
  intro s
  rw [deviceRead_casin]
  refine ⟨?_, tapeReadCasin_of_stopped, fun hplay hactive hend => ?_, fun hplay hactive d hd => ?_,
    fun hplay hactive hearly => ?_, fun hplay hactive hdue => ?_⟩
  · rw [tapeReadCasin_fst]
    cases (tapeReadCasin s).2.tape.casin <;> rfl
  · rw [tapeReadCasin_of_playing hplay, tapeArm_of_end hactive (List.getElem?_eq_none hend)]
    exact tapeAdvance_of_not_due fun h => Bool.noConfusion h
  · rw [tapeReadCasin_of_playing hplay, tapeArm_of_next hactive hd]
    exact tapeAdvance_of_not_due fun _ => (Nat.sub_self s.clock).trans_le (Nat.zero_le d)
  · rw [tapeReadCasin_of_playing hplay, tapeArm_of_active hactive]
    exact tapeAdvance_of_not_due fun _ => Nat.sub_le_iff_le_add'.2 hearly
  · have hpassed : s.tape.armed < s.clock - s.tape.start := Nat.lt_sub_iff_add_lt'.2 hdue
    rw [tapeReadCasin_of_playing hplay, tapeArm_of_active hactive, tapeAdvance_of_due hactive hpassed, tapeEdge_eq]
    rfl

/-! ### The address shared by keyboard and tape, and the tape's other addresses (O46) -/

/-- The keyboard acts first and the tape on the state it leaves (20 R51, 47 R257). -/
theorem memRead_shared (s : State) :
    memRead 0xC010 s =
      ((keyboardRead s).1 ||| (deviceRead .tape 0xC010 (keyboardRead s).2).1,
        (deviceRead .tape 0xC010 (keyboardRead s).2).2) := by
  rw [memRead, route_keyboard_tape]
  simp [readDevices, deviceRead]

/-- The tape's redirection of 0xC020 to the speaker (47 R268). -/
theorem memRead_tapeSpeaker (s : State) : memRead 0xC020 s = (0x00, (memRead 0xC030 s).2) := by
  rw [memRead_of_single (route_tape (.inl (by decide))), memRead_speaker]
  rfl

/-- The tape answers an address that is neither CASIN nor the redirection with a free byte (47 R269). -/
theorem tapeRead_other {addr : Addr} (h1 : addr.toNat ≠ 0xC010) (h2 : addr.toNat ≠ 0xC020) (s : State) :
    tapeRead addr s = (Config.ioReadValue s.draws, { s with draws := s.draws + 1 }) := by
  rw [tapeRead, if_neg fun h => h1 (congrArg BitVec.toNat h), if_neg fun h => h2 (congrArg BitVec.toNat h)]
  rfl

/-- Settles O46: the shared address by its two devices in order, the tape's own addresses by their route. -/
theorem sharedAddress : Obligations.SharedAddress := by
  intro s addr v
  refine ⟨?_, memRead_tapeSpeaker s, fun h => ?_, memWrite_of_single (route_tape (.inl (by decide)))⟩
  · rw [memRead_shared, keyboardRead_eq]
  · have hne : addr.toNat ≠ 0xC010 ∧ addr.toNat ≠ 0xC020 := by bv_omega
    have hroute : route s.bankMode addr = [.tape] := route_tape (by bv_omega)
    exact ⟨(memRead_of_single hroute).trans (tapeRead_other hne.1 hne.2 s), memWrite_of_single hroute⟩

end Sys2Proof.Machine
end

section
/-! PROOF. The asynchronous events (spec 60 R310 to R319): each sequence said whole, what servicing any of them leaves
unchanged, and the frames that one check stacks. -/

namespace Sys2Proof.Machine

/-! ### RESET (O11) -/

theorem resetSequence_eq (s : State) : resetSequence s =
    { s with
      a := 0x00, x := 0x00, y := 0x00, p := 0x20, sp := 0xFF, pc := s.vectorAt 0xFFFC,
      latches := { s.latches with reset := false } } := by
  simp only [resetSequence, read16_vectorAt (v := resetVector) (n := 0xFFFC) rfl (by decide) (by decide)]
  rfl

/-- Settles O11: the sequence said whole. (The bare name is that of the sequence.) -/
theorem resetSequence_holds : Obligations.ResetSequence := resetSequence_eq

/-! ### NMI and IRQ (O12) -/

theorem nmiSequence_effect (s : State) :
    nmiSequence s =
      { s with
        sp := s.sp - 3, pc := s.vectorAt 0xFFFA, clock := s.clock + 7, ram := (nmiSequence s).ram,
        latches := { s.latches with nmi := false } } ∧
      framePushed s.pc (s.p ||| 0x20) s (nmiSequence s) := by
  obtain ⟨⟨ram, heq⟩, hframe⟩ :=
    enterInterrupt_effect s.pc (pushedByNmi s.p) s.p (v := nmiVector) (n := 0xFFFA) rfl (by decide) (by decide) s
  refine ⟨?_, hframe⟩
  simp only [nmiSequence, heq]
  rfl

/-- With I set the IRQ is counted for later, and its latch cleared (60 R315). -/
theorem irqSequence_of_masked {s : State} (h : getFlag s.p .i = true) :
    irqSequence s = { s with pendingIrq := s.pendingIrq + 1, latches := { s.latches with irq := false } } := by
  simp only [irqSequence, h, if_true]
  rfl

/-- With I clear the IRQ is taken (60 R315). -/
theorem irqSequence_effect {s : State} (h : getFlag s.p .i = false) :
    irqSequence s =
      { s with
        sp := s.sp - 3, p := s.p ||| 0x04, pc := s.vectorAt 0xFFFE, clock := s.clock + 7, ram := (irqSequence s).ram,
        latches := { s.latches with irq := false } } ∧
      framePushed s.pc ((s.p &&& 0xEF) ||| 0x20) s (irqSequence s) := by
  obtain ⟨⟨ram, heq⟩, hframe⟩ :=
    enterInterrupt_effect s.pc (pushedByIrq s.p) (setFlag s.p .i true) (v := irqVector) (n := 0xFFFE) rfl (by decide)
      (by decide) s
  have htaken : irqSequence s =
      (enterInterrupt s.pc (pushedByIrq s.p) (setFlag s.p .i true) irqVector s).setLatches
        { (enterInterrupt s.pc (pushedByIrq s.p) (setFlag s.p .i true) irqVector s).latches with irq := false } := by
    simp only [irqSequence, h, Bool.false_eq_true, if_false]
  rw [htaken]
  refine ⟨?_, hframe⟩
  rw [heq]
  rfl

/-- Settles O12: the two sequences said whole, the IRQ's with I set and with I clear. -/
theorem nmiAndIrq : Obligations.NmiAndIrq :=
  ⟨fun s => ⟨_, nmiSequence_effect s⟩, fun _ => ⟨irqSequence_of_masked, fun h => ⟨_, irqSequence_effect h⟩⟩⟩

/-! ### What servicing an event leaves unchanged -/

/-- `t` is `s` after servicing events for at most `k` cycles: ROM, the power state, the devices, the outputs and RAM
outside page 1 are as before. -/
structure Serviced (k : Nat) (s t : State) : Prop where
  rom      : t.rom = s.rom
  power    : t.power = s.power
  devices  : devicesOf s t
  ram      : ∀ b : Nat, b < 0x0100 ∨ 0x0200 ≤ b → t.ramAt b = s.ramAt b
  clock_ge : s.clock ≤ t.clock
  clock_le : t.clock ≤ s.clock + k

namespace Serviced

variable {j k : Nat} {s t u : State}

theorem refl (k : Nat) (s : State) : Serviced k s s :=
  ⟨rfl, rfl, ⟨rfl, rfl, rfl, rfl, rfl, rfl, rfl⟩, fun _ _ => rfl, Nat.le_refl _, Nat.le_add_right _ _⟩

theorem trans (h1 : Serviced j s t) (h2 : Serviced k t u) : Serviced (j + k) s u where
  rom := h2.rom.trans h1.rom
  power := h2.power.trans h1.power
  devices := by
    obtain ⟨b1, kb1, tape1, snd1, vid1, out1, draws1⟩ := h1.devices
    obtain ⟨b2, kb2, tape2, snd2, vid2, out2, draws2⟩ := h2.devices
    exact ⟨b2.trans b1, kb2.trans kb1, tape2.trans tape1, snd2.trans snd1, vid2.trans vid1, out2.trans out1,
      draws2.trans draws1⟩
  ram := fun b hb => (h2.ram b hb).trans (h1.ram b hb)
  clock_ge := h1.clock_ge.trans h2.clock_ge
  clock_le := by
    have := h1.clock_le
    have := h2.clock_le
    omega

theorem of_ite {c : Prop} [Decidable c] (h : Serviced k s t) : Serviced k s (if c then t else s) := by
  split
  · exact h
  · exact .refl k s

/-- A handler entered: the three bytes of the frame are in page 1. -/
theorem of_framePushed {ret : Addr} {status : Byte}
    (ht : t = { s with
      sp := t.sp, p := t.p, pc := t.pc, clock := s.clock + 7, ram := t.ram, latches := t.latches })
    (hframe : framePushed ret status s t) : Serviced 7 s t := by
  have hclock : t.clock = s.clock + 7 := by rw [ht]
  obtain ⟨-, -, -, hother⟩ := hframe
  refine ⟨by rw [ht], by rw [ht], by rw [ht]; exact ⟨rfl, rfl, rfl, rfl, rfl, rfl, rfl⟩, fun b hb => ?_, by omega,
    by omega⟩
  have h0 := stackSlot_bounds s.sp
  have h1 := stackSlot_bounds (s.sp - 1)
  have h2 := stackSlot_bounds (s.sp - 2)
  exact hother b (by omega) (by omega) (by omega)

theorem resetSequence (s : State) : Serviced 0 s (resetSequence s) := by
  rw [resetSequence_eq]
  exact ⟨rfl, rfl, ⟨rfl, rfl, rfl, rfl, rfl, rfl, rfl⟩, fun _ _ => rfl, Nat.le_refl _, Nat.le_refl _⟩

theorem nmiSequence (s : State) : Serviced 7 s (nmiSequence s) := by
  obtain ⟨heq, hframe⟩ := nmiSequence_effect s
  exact of_framePushed (by rw [heq]) hframe

theorem irqSequence (s : State) : Serviced 7 s (irqSequence s) := by
  cases h : getFlag s.p .i with
  | true =>
    rw [irqSequence_of_masked h]
    exact ⟨rfl, rfl, ⟨rfl, rfl, rfl, rfl, rfl, rfl, rfl⟩, fun _ _ => rfl, Nat.le_refl _, Nat.le_add_right _ _⟩
  | false =>
    obtain ⟨heq, hframe⟩ := irqSequence_effect h
    exact of_framePushed (by rw [heq]) hframe

end Serviced

/-! ### The check, one event after another -/

/-- The check's part for RESET. -/
def serviceReset (s : State) : State := if s.latches.reset then resetSequence s else s

/-- The check's part for NMI. -/
def serviceNmi (s : State) : State := if s.latches.nmi then nmiSequence s else s

/-- The check's part for IRQ. -/
def serviceIrq (s : State) : State := if s.latches.irq then irqSequence s else s

theorem interruptCheck_eq (s : State) : interruptCheck s = serviceIrq (serviceNmi (serviceReset s)) := rfl

theorem irqSequence_latches (s : State) : (irqSequence s).latches = { s.latches with irq := false } := by
  cases h : getFlag s.p .i with
  | true => rw [irqSequence_of_masked h]
  | false => rw [(irqSequence_effect h).1]

theorem serviceReset_latches (s : State) : (serviceReset s).latches = { s.latches with reset := false } := by
  unfold serviceReset
  split
  · rw [resetSequence_eq]
  · next h => rw [← Bool.eq_false_of_not_eq_true h]

theorem serviceNmi_latches (s : State) : (serviceNmi s).latches = { s.latches with nmi := false } := by
  unfold serviceNmi
  split
  · rw [(nmiSequence_effect s).1]
  · next h => rw [← Bool.eq_false_of_not_eq_true h]

theorem serviceIrq_latches (s : State) : (serviceIrq s).latches = { s.latches with irq := false } := by
  unfold serviceIrq
  split
  · exact irqSequence_latches s
  · next h => rw [← Bool.eq_false_of_not_eq_true h]

theorem interruptCheck_latches (s : State) : (interruptCheck s).latches = ⟨false, false, false⟩ := by
  rw [interruptCheck_eq, serviceIrq_latches, serviceNmi_latches, serviceReset_latches]

theorem interruptCheck_of_clear {s : State} (h : s.latches = ⟨false, false, false⟩) : interruptCheck s = s := by
  simp [interruptCheck, h]

/-- A check takes at most 14 cycles: RESET takes none, and each of the other two 7. -/
theorem interruptCheck_serviced (s : State) : Serviced 14 s (interruptCheck s) :=
  have hreset : Serviced 0 s (serviceReset s) := .of_ite (.resetSequence s)
  have hnmi (u : State) : Serviced 7 u (serviceNmi u) := .of_ite (.nmiSequence u)
  have hirq (u : State) : Serviced 7 u (serviceIrq u) := .of_ite (.irqSequence u)
  (hreset.trans (hnmi _)).trans (hirq _)

/-- A vector is outside page 1, so servicing leaves it. -/
theorem Serviced.vectorAt {k : Nat} {s t : State} (h : Serviced k s t) {n : Nat} (hn : 0x200 ≤ n) :
    t.vectorAt n = s.vectorAt n :=
  vectorAt_congr h.devices.1 (fun i => congrArg (Memory.read romDefault · i) h.rom) (fun i hi => h.ram i (.inr hi)) hn

/-! ### The frames of one check (O13) -/

/-- Of two frames pushed one on top of the other, both are there whole: they take six slots. -/
theorem framePushed.stacked {ret ret' : Addr} {status status' : Byte} {s t u : State}
    (h : framePushed ret status s t) (hsp : t.sp = s.sp - 3) (h' : framePushed ret' status' t u) :
    u.ramAt (stackSlot s.sp) = BitVec.ofNat 8 (ret.toNat / 256) ∧
    u.ramAt (stackSlot (s.sp - 1)) = BitVec.ofNat 8 (ret.toNat % 256) ∧
    u.ramAt (stackSlot (s.sp - 2)) = status ∧
    u.ramAt (stackSlot (s.sp - 3)) = BitVec.ofNat 8 (ret'.toNat / 256) ∧
    u.ramAt (stackSlot (s.sp - 4)) = BitVec.ofNat 8 (ret'.toNat % 256) ∧
    u.ramAt (stackSlot (s.sp - 5)) = status' := by
  have e4 : s.sp - 3 - 1 = s.sp - 4 := by bv_omega
  have e5 : s.sp - 3 - 2 = s.sp - 5 := by bv_omega
  obtain ⟨hhi, hlo, hstatus, -⟩ := h
  rw [framePushed, hsp, e4, e5] at h'
  obtain ⟨hhi', hlo', hstatus', hother⟩ := h'
  have under {a : Byte} (h3 : a ≠ s.sp - 3) (h4 : a ≠ s.sp - 4) (h5 : a ≠ s.sp - 5) :
      u.ramAt (stackSlot a) = t.ramAt (stackSlot a) :=
    hother _ (stackSlot_ne h3) (stackSlot_ne h4) (stackSlot_ne h5)
  refine ⟨(under ?_ ?_ ?_).trans hhi, (under ?_ ?_ ?_).trans hlo, (under ?_ ?_ ?_).trans hstatus, hhi', hlo',
    hstatus'⟩ <;> bv_omega

/-- NMI and then IRQ: the IRQ's frame holds the NMI vector as return address (60 R319). -/
theorem irqSequence_nmiSequence_effect {s : State} (hi : getFlag s.p .i = false) :
    let t := irqSequence (nmiSequence s)
    (t.pc = s.vectorAt 0xFFFE ∧ t.sp = s.sp - 6 ∧ t.p = s.p ||| 0x04 ∧ t.clock = s.clock + 14) ∧
      framePushed (s.vectorAt 0xFFFA) ((s.p &&& 0xEF) ||| 0x20) (nmiSequence s) t := by
  intro t
  obtain ⟨hnmi, -⟩ := nmiSequence_effect s
  have hp : (nmiSequence s).p = s.p := by rw [hnmi]
  have hpc : (nmiSequence s).pc = s.vectorAt 0xFFFA := by rw [hnmi]
  have hsp : (nmiSequence s).sp = s.sp - 3 := by rw [hnmi]
  have hclock : (nmiSequence s).clock = s.clock + 7 := by rw [hnmi]
  have hv : (nmiSequence s).vectorAt 0xFFFE = s.vectorAt 0xFFFE := (Serviced.nmiSequence s).vectorAt (by decide)
  have e6 : s.sp - 3 - 3 = s.sp - 6 := by bv_omega
  obtain ⟨hirq, hframe⟩ := irqSequence_effect (s := nmiSequence s) (by rw [hp, hi])
  rw [hp, hpc] at hframe
  refine ⟨⟨?_, ?_, ?_, ?_⟩, hframe⟩
  · rw [← hv]; exact congrArg State.pc hirq
  · rw [← e6, ← hsp]; exact congrArg State.sp hirq
  · rw [← hp]; exact congrArg State.p hirq
  · exact (congrArg State.clock hirq).trans (congrArg (· + 7) hclock)

/-- RESET and then NMI: the NMI's frame holds the reset vector as return address and the status that RESET leaves, and is
at the top of page 1 (60 R313, R319). -/
theorem nmiSequence_resetSequence_effect (s : State) :
    let t := nmiSequence (resetSequence s)
    (t.pc = s.vectorAt 0xFFFA ∧ t.sp = 0xFC ∧ t.p = 0x20 ∧ t.clock = s.clock + 7) ∧
      framePushed (s.vectorAt 0xFFFC) 0x20 (resetSequence s) t := by
  intro t
  have hreset := resetSequence_eq s
  have hp : (resetSequence s).p = 0x20 := by rw [hreset]
  have hpc : (resetSequence s).pc = s.vectorAt 0xFFFC := by rw [hreset]
  have hsp : (resetSequence s).sp = 0xFF := by rw [hreset]
  have hclock : (resetSequence s).clock = s.clock := by rw [hreset]
  have hv : (resetSequence s).vectorAt 0xFFFA = s.vectorAt 0xFFFA := (Serviced.resetSequence s).vectorAt (by decide)
  obtain ⟨hnmi, hframe⟩ := nmiSequence_effect (resetSequence s)
  rw [hp, hpc] at hframe
  refine ⟨⟨?_, ?_, ?_, ?_⟩, hframe⟩
  · rw [← hv]; exact congrArg State.pc hnmi
  · exact (congrArg State.sp hnmi).trans (congrArg (· - 3#8) hsp)
  · exact (congrArg State.p hnmi).trans hp
  · exact (congrArg State.clock hnmi).trans (congrArg (· + 7) hclock)

theorem interruptCheck_of_nmi_irq {s : State} (h : s.latches = ⟨false, true, true⟩) :
    interruptCheck s = irqSequence (nmiSequence s) := by
  have hirq : (nmiSequence s).latches.irq = true := by rw [(nmiSequence_effect s).1, h]
  simp [interruptCheck, h, hirq]

theorem interruptCheck_of_reset_nmi {s : State} (h : s.latches = ⟨true, true, false⟩) :
    interruptCheck s = nmiSequence (resetSequence s) := by
  have hnmi : (resetSequence s).latches.nmi = true := by rw [resetSequence_eq, h]
  have hirq : (nmiSequence (resetSequence s)).latches.irq = false := by
    rw [(nmiSequence_effect _).1, resetSequence_eq, h]
  simp [interruptCheck, h, hnmi, hirq]

/-- Settles O13: the check is the three events in order, and of two frames the second lies on top of the first. (The bare
name is that of the check.) -/
theorem interruptCheck_holds : Obligations.InterruptCheck := by
  refine ⟨fun s => ?_, fun s hl hi => ?_, fun s hl => ?_⟩
  · obtain ⟨hrom, hpower, hdevices, hram, -, -⟩ := interruptCheck_serviced s
    exact ⟨interruptCheck_latches s, interruptCheck_of_clear, hrom, hpower, hdevices, hram⟩
  · obtain ⟨hnmi, hframe⟩ := nmiSequence_effect s
    obtain ⟨⟨hpc, hsp, hp, hclock⟩, hframe'⟩ := irqSequence_nmiSequence_effect hi
    rw [interruptCheck_of_nmi_irq hl]
    exact ⟨hpc, hsp, hp, hclock, hframe.stacked (congrArg State.sp hnmi) hframe'⟩
  · obtain ⟨⟨hpc, hsp, hp, hclock⟩, hhi, hlo, hstatus, -⟩ := nmiSequence_resetSequence_effect s
    have htop : (resetSequence s).sp = 0xFF := congrArg State.sp (resetSequence_eq s)
    rw [interruptCheck_of_reset_nmi hl]
    rw [htop] at hhi hlo hstatus
    exact ⟨hpc, hsp, hp, hclock, hhi, hlo, hstatus⟩

end Sys2Proof.Machine
end

section
/-! PROOF. The fetch (spec 30 R100; 40 R120): the bytes that `fetchInstr` reads, one by one through the bus, are the
encoding of a well-formed instruction, the one it gives (O6); in RAM they are the bytes at `PC` (O5). -/

namespace Sys2Proof.Machine

theorem fetchInstr_of_length_one {s : State} (h : opcodeLength (fetch8 s).1 = 1) :
    fetchInstr s = (assemble (fetch8 s).1 0 0, (fetchBytes 1 s).2) := by
  simp [fetchInstr, h, fetchBytes]

theorem fetchInstr_of_length_two {s : State} (h : opcodeLength (fetch8 s).1 = 2) :
    fetchInstr s = (assemble (fetch8 s).1 (fetch8 (fetch8 s).2).1 0, (fetchBytes 2 s).2) := by
  simp [fetchInstr, h, fetchBytes]

theorem fetchInstr_of_length_three {s : State} (h : opcodeLength (fetch8 s).1 = 3) :
    fetchInstr s =
      (assemble (fetch8 s).1 0 (word (fetch8 (fetch8 (fetch8 s).2).2).1 (fetch8 (fetch8 s).2).1),
        (fetchBytes 3 s).2) := by
  simp [fetchInstr, h, fetchBytes]

/-- What the fetch gives is a well-formed instruction; the bytes read for it are its encoding, and nothing else is done. -/
theorem fetchBytes_length_fetchInstr (s : State) :
    WellFormed (fetchInstr s).1 ∧
      fetchBytes (fetchInstr s).1.length s = (encode (fetchInstr s).1, (fetchInstr s).2) := by
  obtain ⟨f, m, hf⟩ := exists_format (fetch8 s).1
  have hlen := hf.opcodeLength_eq
  cases f with
  | one i =>
    rw [fetchInstr_of_length_one hlen, hf.assemble_eq]
    exact ⟨hf.wellFormed_fill 0 0, by rw [hf.length_fill 0 0, hf.encode_fill 0 0]; rfl⟩
  | two c =>
    rw [fetchInstr_of_length_two hlen, hf.assemble_eq]
    exact ⟨hf.wellFormed_fill _ 0, by rw [hf.length_fill, hf.encode_fill]; rfl⟩
  | three c =>
    rw [fetchInstr_of_length_three hlen, hf.assemble_eq]
    refine ⟨hf.wellFormed_fill 0 _, ?_⟩
    rw [hf.length_fill, hf.encode_fill, OpFormat.operands, loByte_word, hiByte_word]
    rfl

/-- Settles O6: the instruction is the one that the fetch gives. -/
theorem stepExecutesFetchedInstruction : Obligations.StepExecutesFetchedInstruction := by
  intro s hon
  obtain ⟨hwf, hbytes⟩ := fetchBytes_length_fetchInstr (interruptCheck s)
  exact ⟨_, hwf, congrArg Prod.fst hbytes, by rw [step_of_on hon, hbytes]⟩

/-- The `k` bytes at `PC` in RAM. -/
def State.codeBytes (s : State) (k : Nat) : List Byte :=
  (List.range k).map fun j => s.ramAt (s.pc + BitVec.ofNat 16 j).toNat

theorem State.codeBytes_three (s : State) :
    s.codeBytes 3 = [s.ramAt s.pc.toNat, s.ramAt (s.pc + 1).toNat, s.ramAt (s.pc + 2).toNat] := by
  have h0 : s.pc + BitVec.ofNat 16 0 = s.pc := BitVec.add_zero _
  show [s.ramAt (s.pc + BitVec.ofNat 16 0).toNat, _, _] = _
  rw [h0]
  rfl

theorem add_one_add_ofNat (a : Addr) (j : Nat) : a + 1 + BitVec.ofNat 16 j = a + BitVec.ofNat 16 (j + 1) := by
  rw [BitVec.add_assoc, BitVec.ofNat_add, BitVec.add_comm 1]
  rfl

/-- The byte at `PC`, and the bytes from the next address on. -/
theorem State.codeBytes_succ (s : State) (k : Nat) :
    s.codeBytes (k + 1) = s.ramAt s.pc.toNat :: (s.setPc (s.pc + 1)).codeBytes k := by
  have h0 : s.pc + BitVec.ofNat 16 0 = s.pc := BitVec.add_zero _
  simp only [State.codeBytes, List.range_succ_eq_map, List.map_cons, List.map_map, h0, State.setPc_pc,
    add_one_add_ofNat]
  rfl

/-- The first of more bytes of code. -/
theorem State.codeBytes_append_drop (s : State) {j k : Nat} (h : j ≤ k) :
    s.codeBytes j ++ (s.codeBytes k).drop j = s.codeBytes k := by
  have htake : (s.codeBytes k).take j = s.codeBytes j := by
    rw [State.codeBytes, ← List.map_take, List.take_range, Nat.min_eq_left h, State.codeBytes]
  rw [← htake, List.take_append_drop]

/-- Fetches from RAM read the bytes there, and move `PC` alone. -/
theorem fetchBytes_of_isRam {s : State} {k : Nat} (h : ∀ j < k, isRam s.bankMode (s.pc + BitVec.ofNat 16 j)) :
    fetchBytes k s = (s.codeBytes k, s.setPc (s.pc + BitVec.ofNat 16 k)) := by
  induction k generalizing s with
  | zero => simp [fetchBytes, State.setPc, State.codeBytes]
  | succ k ih =>
    have hfetch : fetch8 s = (s.ramAt s.pc.toNat, s.setPc (s.pc + 1)) := by
      have hpc : isRam s.bankMode s.pc := by simpa using h 0 (Nat.succ_pos k)
      rw [fetch8_eq, memRead_of_isRam hpc]
    have hrest := ih (s := s.setPc (s.pc + 1)) fun j hj => by
      rw [State.setPc_pc, add_one_add_ofNat]
      exact h (j + 1) (Nat.succ_lt_succ hj)
    rw [State.setPc_pc, add_one_add_ofNat] at hrest
    rw [fetchBytes, hfetch, hrest, s.codeBytes_succ]
    rfl

/-- Settles O5: the bytes fetched are the first of the three, so what the three decode to is what is fetched. -/
theorem stepRunsDecodedInstruction : Obligations.StepRunsDecodedInstruction := by
  intro s i rest hon hclear h0 h1 h2 hd
  obtain ⟨hwf, hfetch⟩ := fetchBytes_length_fetchInstr s
  have hlen : (fetchInstr s).1.length ≤ 3 := by
    have := (fetchInstr s).1.length_mem
    omega
  have hram : ∀ j < (fetchInstr s).1.length, isRam s.bankMode (s.pc + BitVec.ofNat 16 j) := by
    intro j hj
    have hj3 : j < 3 := by omega
    interval_cases j
    · simpa using h0
    · exact h1
    · exact h2
  rw [fetchBytes_of_isRam hram, Prod.mk.injEq] at hfetch
  obtain ⟨hbytes, hstate⟩ := hfetch
  have hread := decode_encode hwf ((s.codeBytes 3).drop (fetchInstr s).1.length)
  rw [← hbytes, s.codeBytes_append_drop hlen, s.codeBytes_three, hd] at hread
  obtain rfl : i = (fetchInstr s).1 := congrArg Prod.fst (Except.ok.inj hread)
  rw [step_of_on hon, interruptCheck_of_clear hclear, hstate]

end Sys2Proof.Machine
end

section
/-! PROOF. Every instruction as a function of the state: one of a few operations with its cycles (`exec_operation`). From
it come the cycle counts (O8), and in the next part that no instruction sees the video hardware (O59), which compares
the instruction on two states, where `Performs` speaks of one. What every instruction and every step leave alone (O7,
O9) is read off `Performs`. -/

namespace Sys2Proof.Machine

/-! ### The operation of every instruction, with its cycles -/

/-- A value that does not depend on the video hardware. -/
def VideoFree {α : Type} (read : State → α) : Prop := ∀ (s : State) (v : Video), read (s.setVid v) = read s

/-- `Operation k f`: `f` is an operation of the instruction families on the state after the fetch, and takes `k` cycles.
What an instruction passes to its operation does not depend on the video hardware. -/
inductive Operation : (State → Nat) → (State → State) → Prop
  | load (r : Reg) (o : Operand) (k : Nat) : Operation (fun _ => k) (loadRegister r.set o k)
  | transfer (r : Reg) (v : State → Byte) (hv : VideoFree v := by exact fun _ _ => rfl) :
      Operation (fun _ => 2) fun s => transfer r.set (v s) s
  | loadSp (v : State → Byte) (hv : VideoFree v := by exact fun _ _ => rfl) :
      Operation (fun _ => 2) fun s => tick 2 (s.setSp (v s))
  | store (m : MemOperand) (v : State → Byte) (k : Nat) (hv : VideoFree v := by exact fun _ _ => rfl) :
      Operation (fun _ => k) fun s => storeByte m (v s) k s
  | add (o : Operand) (k : Nat) : Operation (fun _ => k) (addWithCarry o k)
  | subtract (o : Operand) (k : Nat) : Operation (fun _ => k) (subtractWithBorrow o k)
  | logic (f : Byte → Byte → Byte) (o : Operand) (k : Nat) : Operation (fun _ => k) (logicalOp f o k)
  | compare (v : State → Byte) (o : Operand) (k : Nat) (hv : VideoFree v := by exact fun _ _ => rfl) :
      Operation (fun _ => k) fun s => compareWith (v s) o k s
  | bit (f : Byte → Byte → Byte → Byte) (o : Operand) (k : Nat) : Operation (fun _ => k) (bitTest f o k)
  | modify (f : State → Byte → Byte → Byte × Byte) (m : MemOperand) (k : Nat)
      (hf : VideoFree f := by exact fun _ _ => rfl) : Operation (fun _ => k) fun s => modifyMemory (f s) m k s
  | modifyRegister (r : Reg) (f : Byte → Byte → Byte × Byte) (v : State → Byte)
      (hv : VideoFree v := by exact fun _ _ => rfl) : Operation (fun _ => 2) fun s => modifyRegister r.set f (v s) s
  | jump (w : Addr) : Operation (fun _ => 3) fun s => tick 3 (s.setPc w)
  | jumpThrough (w : State → Addr) (k : Nat) (hw : VideoFree w := by exact fun _ _ => rfl) :
      Operation (fun _ => k) fun s => jumpThrough (w s) k s
  | call (w : Addr) : Operation (fun _ => 6) (callSubroutine w)
  | ret : Operation (fun _ => 6) returnFromSubroutine
  | branch (c : State → Bool) (n : Byte) (hc : VideoFree c := by exact fun _ _ => rfl) :
      Operation (fun s => 2 + if c s = true then 1 else 0) fun s => branchIf (c s) n s
  | push (v : State → Byte) (hv : VideoFree v := by exact fun _ _ => rfl) :
      Operation (fun _ => 3) fun s => pushByte (v s) s
  | pull (r : Reg) : Operation (fun _ => 4) (pullRegister r.set)
  | pullStatus : Operation (fun _ => 4) pullStatus
  | flag (f : Flag) (v : Bool) : Operation (fun _ => 2) (writeFlag f v)
  | enableInterrupts : Operation (fun _ => 2) clearInterruptDisable
  | nop : Operation (fun _ => 2) (tick 2)
  | brk : Operation (fun _ => 7) softwareInterrupt
  | rti : Operation (fun _ => 6) fun s => tick 6 (returnFromInterrupt s)
  | unknown (op : Byte) : Operation (fun _ => 2) (unknownOpcode op)

/-- The cycles of an instruction (70 R350, R351): the count of the opcode map, and one for a branch that is taken. -/
def instrCycles (i : Instr) (s : State) : Nat :=
  opcodeCycles.getD i.opcode.toNat 0 + if branchTaken i s = true then 1 else 0

/-- `i` is one operation, with the cycles of the opcode map where it is well-formed. -/
def IsOperation (i : Instr) : Prop :=
  ∃ k f, (∀ s, exec i s = .next (f s)) ∧ Operation k f ∧ (WellFormed i → ∀ s, k s = instrCycles i s)

/-- An instruction whose operation and cycles are as listed, by evaluation. -/
theorem isOperation {i : Instr} {k : State → Nat} {f : State → State} (h : Operation k f)
    (hf : ∀ s, exec i s = .next (f s) := by exact fun _ => rfl)
    (hk : ∀ s, k s = instrCycles i s := by exact fun _ => rfl) : IsOperation i :=
  ⟨k, f, hf, h, fun _ => hk⟩

/-- A branch, by the condition that takes it. -/
theorem isOperation_branch {i : Instr} {n : Byte} (c : State → Bool)
    (hf : ∀ s, exec i s = .next (branchIf (c s) n s) := by exact fun _ => rfl)
    (ht : ∀ s, branchTaken i s = c s := by simp [branchTaken])
    (hk : opcodeCycles.getD i.opcode.toNat 0 = 2 := by rfl)
    (hc : VideoFree c := by exact fun _ _ => rfl) : IsOperation i :=
  ⟨_, _, hf, .branch c n hc, fun _ s => by rw [instrCycles, ht, hk]⟩

theorem opcodeCycles_unknown : ∀ op ∈ unknownOpcodes, opcodeCycles.getD op.toNat 0 = 2 := by decide

/-- Every instruction is one operation, and the table of cycles agrees with it row by row. -/
theorem exec_operation (i : Instr) : IsOperation i := by
  cases i with
  | ldaImm | ldaZp | ldaZpx | ldaAbs | ldaAbsx | ldaAbsy | ldaIzx | ldaIzy | ldaIzp => exact isOperation (.load .a _ _)
  | ldxImm | ldxZp | ldxZpy | ldxAbs | ldxAbsy => exact isOperation (.load .x _ _)
  | ldyImm | ldyZp | ldyZpx | ldyAbs | ldyAbsx => exact isOperation (.load .y _ _)
  | staZp | staZpx | staAbs | staAbsx | staAbsy | staIzx | staIzy | staIzp => exact isOperation (.store _ State.a _)
  | stxZp | stxZpy | stxAbs => exact isOperation (.store _ State.x _)
  | styZp | styZpx | styAbs => exact isOperation (.store _ State.y _)
  | stzZp | stzZpx | stzAbs | stzAbsx => exact isOperation (.store _ (fun _ => 0x00) _)
  | tax => exact isOperation (.transfer .x State.a)
  | tay => exact isOperation (.transfer .y State.a)
  | txa => exact isOperation (.transfer .a State.x)
  | tya => exact isOperation (.transfer .a State.y)
  | tsx => exact isOperation (.transfer .x State.sp)
  | txs => exact isOperation (.loadSp State.x)
  | adcImm | adcZp | adcZpx | adcAbs | adcAbsx | adcAbsy | adcIzx | adcIzy | adcIzp => exact isOperation (.add _ _)
  | sbcImm | sbcZp | sbcZpx | sbcAbs | sbcAbsx | sbcAbsy | sbcIzx | sbcIzy | sbcIzp =>
    exact isOperation (.subtract _ _)
  | cmpImm | cmpZp | cmpZpx | cmpAbs | cmpAbsx | cmpAbsy | cmpIzx | cmpIzy | cmpIzp =>
    exact isOperation (.compare State.a _ _)
  | cpxImm | cpxZp | cpxAbs => exact isOperation (.compare State.x _ _)
  | cpyImm | cpyZp | cpyAbs => exact isOperation (.compare State.y _ _)
  | incZp | incZpx | incAbs | incAbsx => exact isOperation (.modify (fun _ => incResult) _ _)
  | decZp | decZpx | decAbs | decAbsx => exact isOperation (.modify (fun _ => decResult) _ _)
  | inx => exact isOperation (.modifyRegister .x incResult State.x)
  | iny => exact isOperation (.modifyRegister .y incResult State.y)
  | dex => exact isOperation (.modifyRegister .x decResult State.x)
  | dey => exact isOperation (.modifyRegister .y decResult State.y)
  | ina => exact isOperation (.modifyRegister .a incResult State.a)
  | dea => exact isOperation (.modifyRegister .a decResult State.a)
  | andImm | andZp | andZpx | andAbs | andAbsx | andAbsy | andIzx | andIzy | andIzp
  | oraImm | oraZp | oraZpx | oraAbs | oraAbsx | oraAbsy | oraIzx | oraIzy | oraIzp
  | eorImm | eorZp | eorZpx | eorAbs | eorAbsx | eorAbsy | eorIzx | eorIzy | eorIzp =>
    exact isOperation (.logic _ _ _)
  | bitImm | bitZp | bitZpx | bitAbs | bitAbsx => exact isOperation (.bit _ _ _)
  | trbZp | trbAbs => exact isOperation (.modify (fun s => trbResult s.a) _ _)
  | tsbZp | tsbAbs => exact isOperation (.modify (fun s => tsbResult s.a) _ _)
  | aslAcc => exact isOperation (.modifyRegister .a aslResult State.a)
  | lsrAcc => exact isOperation (.modifyRegister .a lsrResult State.a)
  | rolAcc => exact isOperation (.modifyRegister .a rolResult State.a)
  | rorAcc => exact isOperation (.modifyRegister .a rorResult State.a)
  | aslZp | aslZpx | aslAbs | aslAbsx => exact isOperation (.modify (fun _ => aslResult) _ _)
  | lsrZp | lsrZpx | lsrAbs | lsrAbsx => exact isOperation (.modify (fun _ => lsrResult) _ _)
  | rolZp | rolZpx | rolAbs | rolAbsx => exact isOperation (.modify (fun _ => rolResult) _ _)
  | rorZp | rorZpx | rorAbs | rorAbsx => exact isOperation (.modify (fun _ => rorResult) _ _)
  | jmpAbs w => exact isOperation (.jump w)
  | jmpInd w => exact isOperation (.jumpThrough (fun _ => w) _)
  | jmpIax w => exact isOperation (.jumpThrough (fun s => indexed w s.x) _)
  | jsr w => exact isOperation (.call w)
  | rts => exact isOperation .ret
  | bcc => exact isOperation_branch fun s => !getFlag s.p .c
  | bcs => exact isOperation_branch fun s => getFlag s.p .c
  | beq => exact isOperation_branch fun s => getFlag s.p .z
  | bne => exact isOperation_branch fun s => !getFlag s.p .z
  | bmi => exact isOperation_branch fun s => getFlag s.p .n
  | bpl => exact isOperation_branch fun s => !getFlag s.p .n
  | bvc => exact isOperation_branch fun s => !getFlag s.p .v
  | bvs => exact isOperation_branch fun s => getFlag s.p .v
  | bra => exact isOperation_branch fun _ => true
  | pha => exact isOperation (.push State.a)
  | phx => exact isOperation (.push State.x)
  | phy => exact isOperation (.push State.y)
  | php => exact isOperation (.push fun s => pushedByBreak s.p)
  | pla => exact isOperation (.pull .a)
  | plx => exact isOperation (.pull .x)
  | ply => exact isOperation (.pull .y)
  | plp => exact isOperation .pullStatus
  | clc | sec | sei | cld | sed | clv => exact isOperation (.flag _ _)
  | cli => exact isOperation .enableInterrupts
  | nop => exact isOperation .nop
  | brk => exact isOperation .brk
  | rti => exact isOperation .rti
  | unknown op =>
    refine ⟨_, _, fun _ => rfl, .unknown op, fun h s => ?_⟩
    exact (opcodeCycles_unknown op (List.contains_iff_mem.1 h)).symm

/-! ### The cycles (O8) -/

@[simp] theorem Reg.set_clock (r : Reg) (s : State) (v : Byte) : (r.set s v).clock = s.clock := by
  cases r <;> rfl

/-- An operation adds its cycles to the clock. -/
theorem Operation.clock {k : State → Nat} {f : State → State} (h : Operation k f) (s : State) :
    (f s).clock = s.clock + k s := by
  cases h with
  | load => simp [loadRegister]
  | transfer => simp [Machine.transfer]
  | loadSp | jump | flag | nop | unknown => rfl
  | store => simp [storeByte]
  | add => simp [addWithCarry]
  | subtract => simp [subtractWithBorrow]
  | logic => simp [logicalOp]
  | compare => simp [compareWith]
  | bit => simp [bitTest]
  | modify => simp [modifyMemory]
  | modifyRegister => simp [Machine.modifyRegister]
  | jumpThrough => simp [Machine.jumpThrough]
  | call => simp [callSubroutine]
  | ret => simp [returnFromSubroutine]
  | branch => rw [branchIf_clock, Nat.add_assoc]
  | push => simp [pushByte]
  | pull => simp [pullRegister]
  | pullStatus => simp [Machine.pullStatus]
  | enableInterrupts => simp [clearInterruptDisable]
  | brk => simp [softwareInterrupt]
  | rti => simp

theorem exec_clock {i : Instr} {s t : State} (hwf : WellFormed i) (ht : exec i s = .next t) :
    t.clock = s.clock + instrCycles i s := by
  obtain ⟨k, f, hf, hop, hk⟩ := exec_operation i
  obtain rfl : f s = t := Host.Outcome.next.inj ((hf s).symm.trans ht)
  rw [hop.clock, hk hwf]

/-- Settles O8: every instruction is an operation, which adds its cycles. -/
theorem instructionCycles : Obligations.InstructionCycles := by
  intro i s hwf
  obtain ⟨_, f, hf, -⟩ := exec_operation i
  exact ⟨f s, hf s, (exec_clock hwf (hf s)).trans (Nat.add_assoc ..).symm⟩

/-! ### The bounds on the cycles (O9) -/

theorem opcodeCycles_bounds : ∀ op : Byte, 2 ≤ opcodeCycles.getD op.toNat 0 ∧ opcodeCycles.getD op.toNat 0 ≤ 7 := by
  decide

theorem opcodeCycles_of_branchTaken {i : Instr} {s : State} (h : branchTaken i s = true) :
    opcodeCycles.getD i.opcode.toNat 0 = 2 := by
  cases i with
  | bcc | bcs | beq | bne | bmi | bpl | bvc | bvs | bra => rfl
  | _ => exact absurd h Bool.false_ne_true

theorem instrCycles_bounds (i : Instr) (s : State) : 2 ≤ instrCycles i s ∧ instrCycles i s ≤ 7 := by
  have hcount := opcodeCycles_bounds i.opcode
  unfold instrCycles
  split
  · next h => rw [opcodeCycles_of_branchTaken h]; decide
  · exact hcount

theorem eq_unknown_of_not_wellFormed {i : Instr} (h : ¬ WellFormed i) : ∃ op, i = .unknown op := by
  cases i with
  | unknown op => exact ⟨op, rfl⟩
  | _ => exact absurd rfl h

theorem exec_clock_bounds {i : Instr} {s t : State} (ht : exec i s = .next t) :
    s.clock + 2 ≤ t.clock ∧ t.clock ≤ s.clock + 7 := by
  by_cases hwf : WellFormed i
  · have hclock := exec_clock hwf ht
    have hbounds := instrCycles_bounds i s
    omega
  · obtain ⟨op, rfl⟩ := eq_unknown_of_not_wellFormed hwf
    obtain rfl := Host.Outcome.next.inj ht
    exact ⟨Nat.le_refl _, Nat.add_le_add_left (by decide) _⟩

/-! ### What no instruction changes (O7, O9) -/

/-- `t` has of `s` what no instruction changes: ROM, the power state, the RESET and NMI latches, and the RAM that lies
under the I/O page. -/
structure Confined (s t : State) : Prop where
  rom    : t.rom = s.rom
  power  : t.power = s.power
  reset  : t.latches.reset = s.latches.reset
  nmi    : t.latches.nmi = s.latches.nmi
  ioPage : ∀ b : Nat, 0xC000 ≤ b → b < 0xC100 → t.ramAt b = s.ramAt b

namespace Confined

variable {s t u : State}

theorem refl (s : State) : Confined s s := ⟨rfl, rfl, rfl, rfl, fun _ _ _ => rfl⟩

theorem trans (h1 : Confined s t) (h2 : Confined t u) : Confined s u :=
  ⟨h2.rom.trans h1.rom, h2.power.trans h1.power, h2.reset.trans h1.reset, h2.nmi.trans h1.nmi,
    fun b hb hb' => (h2.ioPage b hb hb').trans (h1.ioPage b hb hb')⟩

/-- An update of anything else. -/
theorem update (h : Confined s t) (hrom : u.rom = t.rom := by rfl) (hpower : u.power = t.power := by rfl)
    (hlatches : u.latches = t.latches := by rfl) (hram : u.ram = t.ram := by rfl) : Confined s u :=
  h.trans ⟨hrom, hpower, congrArg _ hlatches, congrArg _ hlatches,
    fun b _ _ => congrArg (Memory.read ramDefault · b) hram⟩

theorem of_devicesOnly (h : DevicesOnly s t) : Confined s t := by
  obtain ⟨-, -, -, -, -, -, hlatches, -, -, hram, hrom, hpower, -⟩ := h.kept
  exact (refl s).update hrom hpower hlatches hram

theorem of_serviced {k : Nat} (h : Serviced k s t) (hlatches : t.latches = s.latches) : Confined s t :=
  ⟨h.rom, h.power, congrArg _ hlatches, congrArg _ hlatches, fun b hb _ => h.ram b (.inr (by omega))⟩

theorem memWrite (addr : Addr) (v : Byte) (s : State) : Confined s (memWrite addr v s) :=
  ⟨memWrite_rom .., memWrite_power .., congrArg _ (memWrite_latches ..), congrArg _ (memWrite_latches ..),
    fun _ hb hb' => memWrite_ramAt_ioPage hb hb' addr v s⟩

theorem push (v : Byte) (s : State) : Confined s (push v s) := (memWrite (stackAddr s.sp) v s).update

theorem pop (s : State) : Confined s (pop s).2 := by
  rw [pop_eq]
  exact (refl s).update

theorem pop16 (s : State) : Confined s (pop16 s).2 := (pop s).trans (pop _)

theorem replayIrq (s : State) : Confined s (replayIrq s) := by
  rcases replayIrq_cases s with ⟨-, -, h⟩ | ⟨-, h⟩
  · rw [h]
    exact ⟨rfl, rfl, rfl, rfl, fun _ _ _ => rfl⟩
  · rw [h]
    exact refl s

theorem softwareInterrupt (s : State) : Confined s (softwareInterrupt s) := by
  obtain ⟨heq, hframe⟩ := softwareInterrupt_effect s
  exact of_serviced (.of_framePushed (by rw [heq]) hframe) (by rw [heq])

theorem fetchBytes (k : Nat) (s : State) : Confined s (fetchBytes k s).2 := by
  induction k generalizing s with
  | zero => exact refl s
  | succ k ih => exact ((of_devicesOnly (memRead_devicesOnly s.pc s)).update (u := (fetch8 s).2)).trans (ih _)

end Confined

/-- No operation changes what `Confined` names. -/
theorem Performs.confined {s : State} {fs : List Flag} {rs : List Reg} {t : State} (hp : Performs s fs rs t) :
    Confined s t := by
  have hl := fun o => Confined.of_devicesOnly (load_devicesOnly o s)
  have h0 := Confined.refl s
  cases hp with
  | load r o k => cases r <;> exact (hl o).update
  | transfer r v => cases r <;> exact h0.update
  | modifyRegister hf r v => cases r <;> exact h0.update
  | pull r => cases r <;> exact (Confined.pop s).update
  | add o k | subtract o k | logic f o k | compare v o k | bit hf o k => exact (hl o).update
  | loadSp | jump | flag | nop | unknown => exact h0.update
  | store m v k =>
    rw [storeByte, store_eq]
    exact (Confined.memWrite _ _ s).update
  | modify hf m k =>
    rw [modifyMemory, modify_eq]
    exact ((Confined.of_devicesOnly (memRead_devicesOnly _ s)).trans (.memWrite _ _ _)).update
  | jumpThrough w k => exact (Confined.of_devicesOnly (read16_devicesOnly w s)).update
  | call w => exact ((Confined.push _ s).trans (.push _ _)).update
  | ret => exact (Confined.pop16 s).update
  | branch c n => cases c <;> exact h0.update
  | push v => exact (Confined.push v s).update
  | pullStatus => exact ((Confined.pop s).update.trans (.replayIrq ((pop s).2.setP (statusOfByte (pop s).1)))).update
  | enableInterrupts => exact (h0.update.trans (.replayIrq (s.setP (setFlag s.p .i false)))).update
  | brk => exact .softwareInterrupt s
  | rti => exact ((Confined.pop s).update.trans (.pop16 ((pop s).2.setP (statusOfByte (pop s).1)))).update

theorem exec_confined {i : Instr} {s t : State} (ht : exec i s = .next t) : Confined s t := by
  obtain ⟨_, _, t', ht', hp, -⟩ := exec_performs i s
  obtain rfl : t = t' := Host.Outcome.next.inj (ht.symm.trans ht')
  exact hp.confined

@[simp] theorem fetchBytes_clock (k : Nat) (s : State) : (fetchBytes k s).2.clock = s.clock := by
  induction k generalizing s with
  | zero => rfl
  | succ k ih => simp [fetchBytes, ih, fetch8_eq]

/-! ### What every step does (O7, O9) -/

/-- A step of a machine that is on is an instruction, on a state that the check leads to but for the fetches. -/
theorem exists_exec_of_on {s : State} (hon : s.power = .on) :
    ∃ i u, step s = exec i u ∧ Confined (interruptCheck s) u ∧ u.clock = (interruptCheck s).clock := by
  obtain ⟨i, -, -, hstep⟩ := stepExecutesFetchedInstruction s hon
  exact ⟨i, _, hstep, .fetchBytes _ _, fetchBytes_clock _ _⟩

/-- Settles O7: every instruction completes, and leaves the latches that the check has cleared. -/
theorem stepNeverStops : Obligations.StepNeverStops := by
  refine fun s => ⟨fun hon => ?_, step_of_off⟩
  obtain ⟨i, u, hstep, hu, -⟩ := exists_exec_of_on hon
  obtain ⟨_, _, t, ht, hp, -⟩ := exec_performs i u
  have hkept := hu.trans hp.confined
  refine ⟨t, hstep.trans ht, ?_, ?_, ?_⟩
  · rw [hkept.power, (interruptCheck_serviced s).power, hon]
  · rw [hkept.reset, interruptCheck_latches]
  · rw [hkept.nmi, interruptCheck_latches]

/-- Settles O9: at most 14 cycles of the check, then 2 to 7 of one instruction. -/
theorem everyStep : Obligations.EveryStep := by
  refine ⟨fun s t ht => ?_, fun i s t => exec_clock_bounds⟩
  cases hp : s.power with
  | off => simp [step_of_off hp] at ht
  | on =>
    obtain ⟨i, u, hstep, hu, hclock⟩ := exists_exec_of_on hp
    rw [hstep] at ht
    obtain ⟨hrom, -, -, hram, hge, hle⟩ := interruptCheck_serviced s
    have hkept := hu.trans (exec_confined ht)
    have hinstr := exec_clock_bounds ht
    refine ⟨by omega, by omega, fun k => ?_, fun b hb hb' => ?_⟩
    · exact congrArg (Memory.read romDefault · k) (hkept.rom.trans hrom)
    · exact (hkept.ioPage b hb hb').trans (hram b (.inr (by omega)))

end Sys2Proof.Machine
end

section
/-! PROOF. What the CPU sees of video: nothing (O59; 48 R297). A state that is another one but for the video hardware is
`s.setVid v`; every bus access, operation, interrupt and instruction leaves from it the state it leaves from `s`, but for
the video hardware again. -/

namespace Sys2Proof.Machine

/-! ### Operations that do not see the video hardware -/

/-- From two states that differ in the video hardware alone, `f` leaves two such states. -/
def Blind (f : State → State) : Prop := ∀ (s : State) (v : Video), ∃ v', f (s.setVid v) = (f s).setVid v'

/-- From two states that differ in the video hardware alone, `f` reads one value and leaves two such states. -/
def BlindRead {α : Type} (f : State → α × State) : Prop :=
  ∀ (s : State) (v : Video), ∃ v', f (s.setVid v) = ((f s).1, (f s).2.setVid v')

section
variable {α β : Type} {f g : State → State} {read : State → α × State}

/-- An update of other fields, from values of other fields. -/
theorem Blind.of_commute (h : ∀ s v, f (s.setVid v) = (f s).setVid v) : Blind f := fun s v => ⟨v, h s v⟩

theorem Blind.comp (hg : Blind g) (hf : Blind f) : Blind fun s => g (f s) := fun s v => by
  obtain ⟨v', hv'⟩ := hf s v
  obtain ⟨v'', hv''⟩ := hg (f s) v'
  exact ⟨v'', by simp only [hv', hv'']⟩

theorem Blind.ite {c : State → Bool} (hc : VideoFree c) (hf : Blind f) (hg : Blind g) :
    Blind fun s => if c s then f s else g s := fun s v => by
  simp only [hc s v]
  cases c s with
  | true => exact hf s v
  | false => exact hg s v

/-- What an operation is told may be a value that does not depend on the video hardware. -/
theorem Blind.applied {arg : State → α} (ha : VideoFree arg) {op : α → State → State} (h : ∀ a, Blind (op a)) :
    Blind fun s => op (arg s) s := fun s v => by
  obtain ⟨v', hv'⟩ := h (arg s) s v
  exact ⟨v', by simp only [ha s v, hv']⟩

theorem BlindRead.applied {arg : State → β} (ha : VideoFree arg) {op : β → State → α × State}
    (h : ∀ a, BlindRead (op a)) : BlindRead fun s => op (arg s) s := fun s v => by
  obtain ⟨v', hv'⟩ := h (arg s) s v
  exact ⟨v', by simp only [ha s v, hv']⟩

/-- What follows a read may depend on the value read. -/
theorem BlindRead.then_blind (hr : BlindRead read) {next : α → State → State} (h : ∀ a, Blind (next a)) :
    Blind fun s => next (read s).1 (read s).2 := fun s v => by
  obtain ⟨v', hv'⟩ := hr s v
  obtain ⟨v'', hv''⟩ := h (read s).1 (read s).2 v'
  exact ⟨v'', by simp only [hv', hv'']⟩

theorem BlindRead.snd (hr : BlindRead read) : Blind fun s => (read s).2 :=
  hr.then_blind (next := fun _ s => s) fun _ _ v => ⟨v, rfl⟩

theorem BlindRead.then_read (hr : BlindRead read) {next : α → State → β × State} (h : ∀ a, BlindRead (next a)) :
    BlindRead fun s => next (read s).1 (read s).2 := fun s v => by
  obtain ⟨v', hv'⟩ := hr s v
  obtain ⟨v'', hv''⟩ := h (read s).1 (read s).2 v'
  exact ⟨v'', by simp only [hv', hv'']⟩

theorem Blind.then_read (hf : Blind f) (hr : BlindRead read) : BlindRead fun s => read (f s) := fun s v => by
  obtain ⟨v', hv'⟩ := hf s v
  obtain ⟨v'', hv''⟩ := hr (f s) v'
  exact ⟨v'', by simp only [hv', hv'']⟩

/-- Reading a value and leaving a state, each blindly. -/
theorem Blind.reading {val : State → α} (hval : VideoFree val) (hf : Blind f) : BlindRead fun s => (val s, f s) :=
  fun s v => by
    obtain ⟨v', hv'⟩ := hf s v
    exact ⟨v', by simp only [hval s v, hv']⟩

end

/-! ### The devices -/

theorem blind_soundAccess : Blind soundAccess := .of_commute fun s v => by
  simp only [soundAccess_eq]
  rfl

theorem blindRead_drawIoByte : BlindRead drawIoByte := fun _ v => ⟨v, rfl⟩

theorem blindRead_soundRead : BlindRead soundRead := blind_soundAccess.then_read blindRead_drawIoByte

theorem blind_tapeArm : Blind tapeArm := .of_commute fun s v => by
  cases h : s.tape.active with
  | true => rw [tapeArm_of_active h, tapeArm_of_active (s := s.setVid v) h]
  | false =>
    cases hw : s.tape.wave[s.tape.head]? with
    | none =>
      rw [tapeArm_of_end h hw, tapeArm_of_end (s := s.setVid v) h hw]
      rfl
    | some d =>
      rw [tapeArm_of_next h hw, tapeArm_of_next (s := s.setVid v) h hw]
      rfl

theorem blind_tapeEdge : Blind tapeEdge := .of_commute fun s v => by
  simp only [tapeEdge, State.setVid_tape]
  split <;> rfl

theorem blind_tapeAdvance : Blind tapeAdvance :=
  have hsound : Blind fun s => if s.tape.sound then (soundRead s).2 else s :=
    .ite (fun _ _ => rfl) blindRead_soundRead.snd
      (.of_commute fun _ _ => rfl)
  .ite (c := fun s => s.tape.active && s.tape.armed < s.clock - s.tape.start) (fun _ _ => rfl)
    (hsound.comp blind_tapeEdge) (.of_commute fun _ _ => rfl)

theorem blindRead_tapeRead (addr : Addr) : BlindRead (tapeRead addr) := by
  have hcasin : BlindRead tapeReadCasin :=
    Blind.then_read (f := fun s => if s.tape.play then tapeAdvance (tapeArm s) else s)
      (.ite (fun _ _ => rfl) (blind_tapeAdvance.comp blind_tapeArm) (.of_commute fun _ _ => rfl))
      (read := fun s => (casinByte s.tape.casin, s)) fun _ v => ⟨v, rfl⟩
  intro s v
  simp only [tapeRead]
  split
  · exact hcasin s v
  split
  · exact blindRead_soundRead.then_read (next := fun _ u => (0x00, u)) (fun _ _ v => ⟨v, rfl⟩) s v
  · exact ⟨v, rfl⟩

theorem blind_videoAccess (addr : Addr) : Blind (videoAccess addr) := by
  intro s v
  refine ⟨(videoAccess addr (s.setVid v)).vid, ?_⟩
  simp only [videoAccess]
  (repeat' split) <;> rfl

theorem blind_bankSwitch (t : BankMode) : Blind (bankSwitch t) := .of_commute fun s v => by
  simp only [bankSwitch_eq]
  rfl

theorem blind_keyboardWrite (addr : Addr) (b : Byte) : Blind (keyboardWrite addr b) := .of_commute fun s v => by
  simp only [keyboardWrite]
  (repeat' split) <;> rfl

theorem blindRead_deviceRead (d : Device) (addr : Addr) : BlindRead (deviceRead d addr) := by
  cases d with
  | ram | rom | keyboard => exact fun _ v => ⟨v, rfl⟩
  | bankSw => exact (blind_bankSwitch _).then_read blindRead_drawIoByte
  | tape => exact blindRead_tapeRead addr
  | sound => exact blindRead_soundRead
  | video => exact Blind.reading (fun _ _ => rfl) (blind_videoAccess addr)

theorem blind_deviceWrite (d : Device) (addr : Addr) (b : Byte) : Blind (deviceWrite d addr b) := by
  cases d with
  | ram | rom | tape => exact .of_commute fun _ _ => rfl
  | bankSw => exact blind_bankSwitch _
  | keyboard => exact blind_keyboardWrite addr b
  | sound => exact blind_soundAccess
  | video => exact blind_videoAccess addr

/-! ### The bus and the operations over it -/

theorem blindRead_readDevices (ds : List Device) (addr : Addr) (b : Byte) : BlindRead (readDevices ds addr b) := by
  induction ds generalizing b with
  | nil => exact fun _ v => ⟨v, rfl⟩
  | cons d ds ih =>
    exact (blindRead_deviceRead d addr).then_read (next := fun c => readDevices ds addr (b ||| c)) fun _ => ih _

theorem blind_writeDevices (ds : List Device) (addr : Addr) (b : Byte) : Blind (writeDevices ds addr b) := by
  induction ds with
  | nil => exact .of_commute fun _ _ => rfl
  | cons d ds ih => exact ih.comp (blind_deviceWrite d addr b)

theorem blindRead_memRead (addr : Addr) : BlindRead (memRead addr) := by
  intro s v
  have hroute : route (s.setVid v).bankMode addr = route s.bankMode addr := rfl
  simp only [memRead, hroute]
  cases route s.bankMode addr with
  | nil => exact ⟨v, rfl⟩
  | cons d ds => exact blindRead_readDevices _ addr 0x00 s v

theorem blind_memWrite (addr : Addr) (b : Byte) : Blind (memWrite addr b) :=
  .applied (arg := fun s => route s.bankMode addr) (fun _ _ => rfl) fun ds => blind_writeDevices ds addr b

theorem blindRead_read16 (addr : Addr) : BlindRead (read16 addr) :=
  (blindRead_memRead addr).then_read fun lo =>
    (blindRead_memRead (addr + 1)).then_read (next := fun hi s => (word hi lo, s)) fun _ _ v => ⟨v, rfl⟩

theorem videoFree_effectiveAddress (m : MemOperand) : VideoFree fun s => (effectiveAddress m s).1 := by
  intro s v
  cases m <;> simp only [effectiveAddress, readPointer_eq] <;> rfl

theorem blindRead_load (o : Operand) : BlindRead (load o) := by
  cases o with
  | imm n => exact fun _ v => ⟨v, rfl⟩
  | mem m =>
    simp only [funext (load_mem m)]
    exact .applied (videoFree_effectiveAddress m) blindRead_memRead

theorem blind_memWrite_effectiveAddress (m : MemOperand) (b : Byte) :
    Blind fun s => memWrite (effectiveAddress m s).1 b s :=
  .applied (videoFree_effectiveAddress m) fun ea => blind_memWrite ea b

/-- One read of the address, one write of it, then the status: the new byte and status depend on the old ones alone. -/
theorem blind_modify (m : MemOperand) (f : Byte → Byte → Byte × Byte) : Blind (modify m f) := by
  have hupdate (ea : Addr) (p : Byte) :
      Blind fun s => (memWrite ea (f (memRead ea s).1 p).1 (memRead ea s).2).setP (f (memRead ea s).1 p).2 :=
    (blindRead_memRead ea).then_blind (next := fun old s => (memWrite ea (f old p).1 s).setP (f old p).2) fun old =>
      (Blind.of_commute (f := fun s => s.setP (f old p).2) fun _ _ => rfl).comp (blind_memWrite ea (f old p).1)
  simp only [funext (modify_eq m f)]
  exact .applied (arg := fun s => ((effectiveAddress m s).1, s.p))
    (fun s v => Prod.ext (videoFree_effectiveAddress m s v) rfl) fun a => hupdate a.1 a.2

theorem blind_push (b : Byte) : Blind (push b) := .of_commute fun _ _ => by
  simp only [push_eq]
  rfl

theorem blind_push16 (w : Addr) : Blind (push16 w) := .of_commute fun _ _ => by
  simp only [push16_eq]
  rfl

theorem blindRead_pop : BlindRead pop := fun _ v => ⟨v, by
  simp only [pop_eq]
  rfl⟩

theorem blindRead_pop16 : BlindRead pop16 := fun _ v => ⟨v, by
  simp only [pop16_eq]
  rfl⟩

theorem blind_replayIrq : Blind replayIrq := .of_commute fun s v => by
  by_cases h : getFlag s.p .i = false ∧ 0 < s.pendingIrq
  · rw [show replayIrq s = _ from if_pos h]
    exact if_pos h
  · rw [show replayIrq s = _ from if_neg h]
    exact if_neg h

theorem blind_jumpThrough (ptr : Addr) (k : Nat) : Blind (jumpThrough ptr k) :=
  (blindRead_read16 ptr).then_blind (next := fun target s => tick k (s.setPc target)) fun _ => .of_commute fun _ _ => rfl

theorem blind_enterInterrupt (ret : Addr) (status p' : Byte) (vector : Addr) :
    Blind (enterInterrupt ret status p' vector) :=
  have hframe : Blind fun s => (push status (push16 ret s)).setP p' :=
    (Blind.of_commute (f := fun s => s.setP p') fun _ _ => rfl).comp ((blind_push status).comp (blind_push16 ret))
  (blind_jumpThrough vector 7).comp hframe

theorem blind_returnFromInterrupt : Blind returnFromInterrupt :=
  have hret : Blind fun s => (pop16 s).2.setPc (pop16 s).1 :=
    blindRead_pop16.then_blind (next := fun w s => s.setPc w) fun _ => .of_commute fun _ _ => rfl
  hret.comp (blindRead_pop.then_blind (next := fun b s => s.setP (statusOfByte b)) fun _ => .of_commute fun _ _ => rfl)

theorem blind_softwareInterrupt : Blind softwareInterrupt :=
  .applied (arg := fun s => (s.pc, s.p)) (fun _ _ => rfl)
    (op := fun a => enterInterrupt (a.1 + 1) (pushedByBreak a.2) (setFlag a.2 .i true) 0xFFFE)
    fun _ => blind_enterInterrupt _ _ _ _

theorem blind_tick (k : Nat) : Blind (tick k) := .of_commute fun _ _ => rfl

/-! ### Instructions, the interrupt check and the step -/

theorem Operation.blind {k : State → Nat} {f : State → State} (h : Operation k f) : Blind f := by
  cases h with
  | load r o k =>
    exact (blindRead_load o).then_blind (next := fun m s => tick k ((r.set s m).setP (setNZ m s.p))) fun _ =>
      .of_commute fun _ _ => by cases r <;> rfl
  | transfer r v hv =>
    exact .applied hv (op := fun a => Machine.transfer r.set a) fun _ => .of_commute fun _ _ => by cases r <;> rfl
  | loadSp v hv => exact .applied hv (op := fun a s => tick 2 (s.setSp a)) fun _ => .of_commute fun _ _ => rfl
  | store m v k hv =>
    refine .applied hv (op := fun a => storeByte m a k) fun a => (blind_tick k).comp ?_
    simp only [funext (store_eq m a)]
    exact blind_memWrite_effectiveAddress m a
  | add o k =>
    exact (blindRead_load o).then_blind
      (next := fun m s => tick k ((s.setA (adcResult s.a m s.p).1).setP (adcResult s.a m s.p).2)) fun _ =>
      .of_commute fun _ _ => rfl
  | subtract o k =>
    exact (blindRead_load o).then_blind
      (next := fun m s => tick k ((s.setA (sbcResult s.a m s.p).1).setP (sbcResult s.a m s.p).2)) fun _ =>
      .of_commute fun _ _ => rfl
  | logic f o k =>
    exact (blindRead_load o).then_blind
      (next := fun m s => tick k ((s.setA (f s.a m)).setP (setNZ (f s.a m) s.p))) fun _ => .of_commute fun _ _ => rfl
  | compare v o k hv =>
    exact .applied hv (op := fun a => compareWith a o k) fun a =>
      (blindRead_load o).then_blind (next := fun m s => tick k (s.setP (compareStatus a m s.p))) fun _ =>
        .of_commute fun _ _ => rfl
  | bit f o k =>
    exact (blindRead_load o).then_blind (next := fun m s => tick k (s.setP (f s.a m s.p))) fun _ =>
      .of_commute fun _ _ => rfl
  | modify f m k hf =>
    exact .applied hf (op := fun g => modifyMemory g m k) fun g => (blind_tick k).comp (blind_modify m g)
  | modifyRegister r f v hv =>
    exact .applied hv (op := fun a => Machine.modifyRegister r.set f a) fun _ =>
      .of_commute fun _ _ => by cases r <;> rfl
  | jump | flag | nop | unknown => exact .of_commute fun _ _ => rfl
  | jumpThrough w k hw => exact .applied hw fun a => blind_jumpThrough a k
  | call w =>
    exact .applied (arg := State.pc) (fun _ _ => rfl) (op := fun pc s => tick 6 ((push16 (pc - 1) s).setPc w)) fun pc =>
      (Blind.of_commute (f := fun s => tick 6 (s.setPc w)) fun _ _ => rfl).comp (blind_push16 (pc - 1))
  | ret =>
    exact blindRead_pop16.then_blind (next := fun a s => tick 6 (s.setPc (a + 1))) fun _ => .of_commute fun _ _ => rfl
  | branch c n hc =>
    exact .applied hc (op := fun b => branchIf b n) fun b => .of_commute fun _ _ => by cases b <;> rfl
  | push v hv => exact .applied hv (op := pushByte) fun a => (blind_tick 3).comp (blind_push a)
  | pull r =>
    exact blindRead_pop.then_blind (next := fun b s => tick 4 ((r.set s b).setP (setNZ b s.p))) fun _ =>
      .of_commute fun _ _ => by cases r <;> rfl
  | pullStatus =>
    exact ((blind_tick 4).comp blind_replayIrq).comp
      (blindRead_pop.then_blind (next := fun b s => s.setP (statusOfByte b)) fun _ => .of_commute fun _ _ => rfl)
  | enableInterrupts =>
    exact ((blind_tick 2).comp blind_replayIrq).comp
      (.of_commute (f := fun s => s.setP (setFlag s.p .i false)) fun _ _ => rfl)
  | brk => exact blind_softwareInterrupt
  | rti => exact (blind_tick 6).comp blind_returnFromInterrupt

/-- An instruction does the same whatever the video hardware holds. -/
theorem exec_setVid (i : Instr) (s : State) (v : Video) :
    ∃ t v', exec i s = .next t ∧ exec i (s.setVid v) = .next (t.setVid v') := by
  obtain ⟨k, f, hf, hop, -⟩ := exec_operation i
  obtain ⟨v', hv'⟩ := hop.blind s v
  exact ⟨f s, v', hf s, by rw [hf, hv']⟩

theorem blind_interruptCheck : Blind interruptCheck := by
  have hid : Blind fun s => s := .of_commute fun _ _ => rfl
  have hreset : Blind resetSequence := .of_commute fun _ _ => by
    simp only [resetSequence_eq]
    rfl
  have hnmi : Blind nmiSequence :=
    (Blind.of_commute (f := fun s => s.setLatches { s.latches with nmi := false }) fun _ _ => rfl).comp
      (.applied (arg := fun s => (s.pc, s.p)) (fun _ _ => rfl)
        (op := fun a => enterInterrupt a.1 (pushedByNmi a.2) a.2 nmiVector) fun _ => blind_enterInterrupt _ _ _ _)
  have hirq : Blind irqSequence :=
    (Blind.of_commute (f := fun s => s.setLatches { s.latches with irq := false }) fun _ _ => rfl).comp
      (.ite (c := fun s => getFlag s.p .i) (fun _ _ => rfl)
        (.of_commute (f := fun s => s.setPendingIrq (s.pendingIrq + 1)) fun _ _ => rfl)
        (.applied (arg := fun s => (s.pc, s.p)) (fun _ _ => rfl)
          (op := fun a => enterInterrupt a.1 (pushedByIrq a.2) (setFlag a.2 .i true) irqVector)
          fun _ => blind_enterInterrupt _ _ _ _))
  exact (Blind.ite (c := fun s => s.latches.irq) (fun _ _ => rfl) hirq hid).comp
    ((Blind.ite (c := fun s => s.latches.nmi) (fun _ _ => rfl) hnmi hid).comp
      (.ite (c := fun s => s.latches.reset) (fun _ _ => rfl) hreset hid))

theorem blindRead_fetch8 : BlindRead fetch8 :=
  .applied (arg := State.pc) (fun _ _ => rfl)
    (op := fun pc s => ((memRead pc s).1, (memRead pc s).2.setPc (pc + 1))) fun pc =>
      (blindRead_memRead pc).then_read (next := fun b s => (b, s.setPc (pc + 1))) fun _ _ v => ⟨v, rfl⟩

/-- The fetch of the operand bytes that the opcode calls for. -/
def fetchOperand (op : Byte) (s : State) : Instr × State :=
  match opcodeLength op with
  | 1 => (assemble op 0 0, s)
  | 2 => (assemble op (fetch8 s).1 0, (fetch8 s).2)
  | _ => (assemble op 0 (word (fetch8 (fetch8 s).2).1 (fetch8 s).1), (fetch8 (fetch8 s).2).2)

theorem fetchInstr_eq (s : State) : fetchInstr s = fetchOperand (fetch8 s).1 (fetch8 s).2 := rfl

theorem blindRead_fetchOperand (op : Byte) : BlindRead (fetchOperand op) := by
  unfold fetchOperand
  split
  · exact fun _ v => ⟨v, rfl⟩
  · exact blindRead_fetch8.then_read (next := fun n s => (assemble op n 0, s)) fun _ _ v => ⟨v, rfl⟩
  · exact blindRead_fetch8.then_read fun l =>
      blindRead_fetch8.then_read (next := fun u s => (assemble op 0 (word u l), s)) fun _ _ v => ⟨v, rfl⟩

theorem blindRead_fetchInstr : BlindRead fetchInstr := by
  rw [funext fetchInstr_eq]
  exact blindRead_fetch8.then_read blindRead_fetchOperand

/-- Settles O59: the check, the fetch and the instruction are each blind to the video hardware. -/
theorem videoIsInvisible : Obligations.VideoIsInvisible := by
  intro s t s' hst hs
  obtain ⟨v, rfl⟩ : ∃ v, t = s.setVid v := ⟨t.vid, by rw [← hst]; rfl⟩
  cases hp : s.power with
  | off => simp [step_of_off hp] at hs
  | on =>
    rw [step_of_on hp] at hs
    obtain ⟨v1, hcheck⟩ := blind_interruptCheck s v
    obtain ⟨v2, hfetch⟩ := blindRead_fetchInstr (interruptCheck s) v1
    obtain ⟨u, v3, hu, hexec⟩ := exec_setVid (fetchInstr (interruptCheck s)).1 (fetchInstr (interruptCheck s)).2 v2
    obtain rfl : u = s' := Host.Outcome.next.inj (hu.symm.trans hs)
    refine ⟨u.setVid v3, ?_, rfl⟩
    rw [step_of_on (s := s.setVid v) hp, hcheck, hfetch, hexec]

end Sys2Proof.Machine
end

section
/-! PROOF. Video (spec 48): the softswitches, the screen addresses, the two rasters, and the refresh, whole
(O52) and byte by byte (O53). -/

namespace Sys2Proof.Machine

/-! ### The softswitches (O48) -/

/-- A read and a write of a video address do the same, and the read gives 0xFF (48 R290, R291). -/
theorem video_access {addr : Addr}
    (h : addr.toNat = 0xC050 ∨ addr.toNat = 0xC051 ∨ addr.toNat = 0xC054 ∨ addr.toNat = 0xC055) (v : Byte) (s : State) :
    memRead addr s = (0xFF, videoAccess addr s) ∧ memWrite addr v s = videoAccess addr s :=
  ⟨memRead_of_single (route_video h), memWrite_of_single (route_video h)⟩

/-- Settles O48: each of the four addresses routes to the video hardware alone. -/
theorem videoSoftswitches : Obligations.VideoSoftswitches := fun s v =>
  ⟨video_access (.inl rfl) v s, video_access (.inr (.inl rfl)) v s, video_access (.inr (.inr (.inl rfl))) v s,
    video_access (.inr (.inr (.inr rfl))) v s⟩

/-! ### The screen addresses (O49) -/

/-- The interleaved table as arithmetic (48 R294). -/
theorem textLineAddress_eq : ∀ band < 24, textLineAddress.getD band 0 = 0x80 * (band % 8) + 0x28 * (band / 8) := by
  decide

theorem byteAddr_eq (page : HiresPage) {y : Nat} (hy : y < 192) (k : Nat) :
    byteAddr page y k = page.base + (0x80 * (y / 8 % 8) + 0x28 * (y / 8 / 8)) + 0x400 * (y % 8) + k := by
  rw [byteAddr, lineAddr, textLineAddress_eq _ (by omega)]

/-- Every address of a scanline lies inside the page of 8 KiB (48 R293). -/
theorem byteAddr_bounds (page : HiresPage) {y k : Nat} (hy : y < 192) (hk : k < 40) :
    page.base ≤ byteAddr page y k ∧ byteAddr page y k < page.base + 0x2000 := by
  rw [byteAddr_eq page hy]
  omega

theorem HiresPage.base_le (page : HiresPage) : page.base ≤ 0xA000 := by
  cases page <;> decide

theorem isRam_byteAddr (page : HiresPage) (bank : BankMode) {y k : Nat} (hy : y < 192) (hk : k < 40) :
    isRam bank (BitVec.ofNat 16 (byteAddr page y k)) := by
  have hbase := page.base_le
  have hbounds := byteAddr_bounds page hy hk
  left
  rw [BitVec.toNat_ofNat]
  omega

/-- Settles O49: the bounds are those of each page's base. -/
theorem screenAddresses : Obligations.ScreenAddresses := by
  intro page y k bank hy hk
  obtain ⟨hle, hlt⟩ := byteAddr_bounds page hy hk
  cases page <;> exact ⟨byteAddr_eq _ hy k, hle, hlt, isRam_byteAddr _ bank hy hk⟩

/-! ### The rasters (O50, O51) -/

/-- Pixel `j` of the 14 that byte `k` of a scanline has. -/
theorem rasterLine_cell (mode : ColorMode) (line : List Byte) {k j : Nat} (hk : k < 40) (hj : j < 14) :
    (rasterLine mode line)[14 * k + j]? = some (cellsAt mode line k)[j] := by
  rw [rasterLine_getElem? mode line (by omega), linePixel_cell mode line k hj]

theorem monoPixel_eq (bit : Bool) : monoPixel bit = if bit = true then 0xFFFFFF else 0x000000 := by
  cases bit <;> rfl

/-- Settles O50: the two pixels of a column bit are at `2 * i` and `2 * i + 1` of the byte's 14. -/
theorem monoRaster : Obligations.MonoRaster := by
  refine fun line => ⟨Vector.length_toList, fun k i j hk hi hj => ?_⟩
  have hbit : (2 * i + j) / 2 = i := by omega
  rw [Nat.add_assoc, rasterLine_cell .mono line hk (by omega), cellsAt_mono, hbit, monoPixel_eq]

theorem paletteEntry_mem (i : Fin 16) : paletteEntry colorPalette i.val ∈ colorPalette := by
  revert i
  decide

theorem linePixel_color_mem (line : List Byte) (j : Nat) : linePixel .color line j ∈ colorPalette := by
  rw [linePixel, cellsAt_color]
  exact paletteEntry_mem _

/-- The trailing column bits of a byte are its bits 5 and 6 (48 R298). -/
theorem trailing_congr {b c : Byte} (h : ∀ i, i = 5 ∨ i = 6 → b.getLsbD i = c.getLsbD i) :
    b.extractLsb' 5 2 = c.extractLsb' 5 2 := by
  apply BitVec.eq_of_getLsbD_eq
  intro i hi
  simp only [BitVec.getLsbD_extractLsb', hi, decide_true, Bool.true_and]
  exact h _ (by omega)

/-- The leading column bits of a byte are its bits 0 and 1 (48 R298). -/
theorem leading_congr {b c : Byte} (h : ∀ i, i < 2 → b.getLsbD i = c.getLsbD i) :
    b.extractLsb' 0 2 = c.extractLsb' 0 2 := by
  apply BitVec.eq_of_getLsbD_eq
  intro i hi
  simp only [BitVec.getLsbD_extractLsb', hi, decide_true, Bool.true_and, Nat.zero_add]
  exact h i hi

/-- The cells of a byte depend on it and on the two column bits either side alone (48 R300). -/
theorem cellsAt_congr {mode : ColorMode} {line other : List Byte} {k : Nat}
    (hbyte : other.getD k 0x00 = line.getD k 0x00)
    (hprev : k = 0 ∨ ∀ i, i = 5 ∨ i = 6 → (other.getD (k - 1) 0x00).getLsbD i = (line.getD (k - 1) 0x00).getLsbD i)
    (hnext : k = 39 ∨ ∀ i, i < 2 → (other.getD (k + 1) 0x00).getLsbD i = (line.getD (k + 1) 0x00).getLsbD i) :
    cellsAt mode other k = cellsAt mode line k := by
  have hpp : (if k = 0 then 0x00 else other.getD (k - 1) 0x00).extractLsb' 5 2 =
      (if k = 0 then 0x00 else line.getD (k - 1) 0x00).extractLsb' 5 2 := by
    split
    · rfl
    · next h => exact trailing_congr (hprev.resolve_left h)
  have hnn : (if k = 39 then 0x00 else other.getD (k + 1) 0x00).extractLsb' 0 2 =
      (if k = 39 then 0x00 else line.getD (k + 1) 0x00).extractLsb' 0 2 := by
    split
    · rfl
    · next h => exact leading_congr (hnext.resolve_left h)
  simp only [cellsAt, hbyte, hpp, hnn]

theorem colorIndex_black (pp nn : BitVec 2) (i : Nat) : colorIndex 0x00 pp nn i = 0 := rfl

theorem colorIndex_white (pp nn : BitVec 2) (i : Nat) : colorIndex 0x7F pp nn i = 15 := rfl

/-- Settles O51: the cells of a byte as `cellsAt_color` gives them, and the palette indices the spec fixes. -/
theorem colorRaster : Obligations.ColorRaster := by
  refine fun line => ⟨Vector.length_toList, fun pixel hpixel => ?_, fun k j hk hj => ?_, fun h0 h1 => ?_⟩
  · obtain ⟨j, hj, rfl⟩ := Vector.getElem_of_mem hpixel
    simpa [rasterLine] using linePixel_color_mem line j
  · refine ⟨_, rasterLine_cell .color line hk hj, fun hb => ?_, fun hb => ?_, fun other hbyte hprev hnext => ?_⟩
    · rw [cellsAt_color, hb, colorIndex_black]
      rfl
    · rw [cellsAt_color, hb, colorIndex_white]
      rfl
    · rw [rasterLine_cell .color other hk hj, cellsAt_congr hbyte hprev hnext]
  · have hcell := rasterLine_cell .color line (k := 0) (j := 0) (by decide) (by decide)
    rw [cellsAt_color, h0] at hcell
    simp only [Nat.zero_add, h1] at hcell
    exact hcell

/-! ### A refresh at one instant (O52) -/

/-- The video task reads RAM, and changes nothing by it (48 R293). -/
theorem videoByte_eq (s : State) {y k : Nat} (hy : y < 192) (hk : k < 40) :
    videoByte s y k = (s.ramAt (byteAddr s.vid.hiresPage y k), s) := by
  have hbase := s.vid.hiresPage.base_le
  have hbounds := byteAddr_bounds s.vid.hiresPage hy hk
  rw [videoByte, memRead_of_isRam (isRam_byteAddr _ _ hy hk), BitVec.toNat_ofNat, Nat.mod_eq_of_lt (by omega)]

/-- The first `k` bytes of scanline `y`, from the RAM page on show. -/
def screenBytes (s : State) (y k : Nat) : List Byte :=
  (List.range k).map fun i => s.ramAt (byteAddr s.vid.hiresPage y i)

theorem screenBytes_succ (s : State) (y k : Nat) :
    screenBytes s y (k + 1) = screenBytes s y k ++ [s.ramAt (byteAddr s.vid.hiresPage y k)] := by
  simp [screenBytes, List.range_succ]

theorem scanBytes_eq (s : State) {y : Nat} (hy : y < 192) : scanBytes s y = screenBytes s y lineBytes := by
  refine List.map_congr_left fun k hk => ?_
  rw [videoByte_eq s hy (List.mem_range.1 hk)]

/-- The framebuffer after the first `n` scanlines of a refresh of this instant. -/
def frameTo (s : State) (n : Nat) : Framebuffer :=
  (List.range n).foldl (fun fb y => drawScanline fb y (rasterLine s.vid.colorMode (screenBytes s y lineBytes))) s.vid.fb

theorem frameTo_succ (s : State) (n : Nat) :
    frameTo s (n + 1) =
      drawScanline (frameTo s n) n (rasterLine s.vid.colorMode (screenBytes s n lineBytes)) := by
  simp [frameTo, List.range_succ]

theorem frame_eq (s : State) : frame s = frameTo s scanlines := by
  refine List.foldl_ext _ _ _ fun fb y hy => ?_
  rw [scanBytes_eq s (List.mem_range.1 hy)]

/-- A scanline drawn is in both of its rows, and the later ones are as before. -/
theorem frameTo_pixel (s : State) {n : Nat} (hn : n ≤ 192) (r : Fin 384) (c : Fin 560) :
    (frameTo s n).pixel r c =
      if r.val / 2 < n then (rasterLine s.vid.colorMode (screenBytes s (r.val / 2) lineBytes))[c]
      else s.vid.fb.pixel r c := by
  induction n with
  | zero => rfl
  | succ n ih =>
    rw [frameTo_succ, drawScanline_pixel _ (by omega), ih (by omega)]
    by_cases hr : r.val / 2 = n
    · simp [hr]
    · have hlt : r.val / 2 < n + 1 ↔ r.val / 2 < n := by omega
      simp only [hr, hlt, if_false]

theorem refresh_eq (s : State) : refresh s =
    { s with
      vid := { s.vid with fb := frame s, scanRow := 0, scanLine := [] }
      out := { s.out with signals := .damaged :: s.out.signals } } := by
  unfold refresh
  generalize frame s = fb
  rfl

theorem refresh_fb (s : State) : (refresh s).vid.fb = frame s := by rw [refresh_eq]

/-- Settles O52: each of the 384 rows belongs to one of the 192 scanlines. -/
theorem refreshFrame : Obligations.RefreshFrame := by
  intro s t
  have hfb : t.vid.fb = frame s := refresh_fb s
  rw [hfb]
  refine ⟨refresh_eq s, fun r c => ?_⟩
  have hrow : r.val / 2 < scanlines := by
    have := r.isLt
    simp only [scanlines]
    omega
  rw [frame_eq, frameTo_pixel s (Nat.le_refl scanlines), if_pos hrow]
  rfl

/-! ### A refresh byte by byte (O53) -/

theorem videoReads_add (j k : Nat) (s : State) : videoReads (j + k) s = videoReads k (videoReads j s) := by
  induction j generalizing s with
  | zero => rw [Nat.zero_add]; rfl
  | succ j ih => rw [Nat.succ_add]; exact ih _

/-- A refresh in the middle of a scanline, of which `line` is read. -/
def withLine (s : State) (line : List Byte) : State := s.setVid { s.vid with scanLine := line }

section
variable {s : State} (hrow : s.vid.scanRow < 192)
include hrow

theorem videoByte_withLine {k : Nat} (hk : k < 40) (line : List Byte) :
    videoByte (withLine s line) s.vid.scanRow k = (s.ramAt (byteAddr s.vid.hiresPage s.vid.scanRow k), withLine s line) :=
  videoByte_eq (withLine s line) hrow hk

/-- A read with `k` bytes of the scanline read: the next one is appended, and the 40th ends the line. -/
theorem videoRead_withLine {k : Nat} (hk : k < 40) :
    videoRead (withLine s (screenBytes s s.vid.scanRow k)) =
      if k + 1 < 40 then withLine s (screenBytes s s.vid.scanRow (k + 1))
      else videoEndLine (screenBytes s s.vid.scanRow (k + 1)) (withLine s (screenBytes s s.vid.scanRow k)) := by
  have hlen (j : Nat) : (screenBytes s s.vid.scanRow j).length = j := by simp [screenBytes]
  have hbyte := videoByte_withLine hrow hk (screenBytes s s.vid.scanRow k)
  simp only [videoRead]
  show (if _ < lineBytes then _ else _) = _
  simp only [withLine, State.setVid_vid, hlen] at hbyte ⊢
  rw [hbyte, ← screenBytes_succ, hlen]
  rfl

/-- The reads of a scanline up to its last byte. -/
theorem videoReads_line (hline : s.vid.scanLine = []) {k : Nat} (hk : k < 40) :
    videoReads k s = withLine s (screenBytes s s.vid.scanRow k) := by
  induction k with
  | zero =>
    show s = s.setVid { s.vid with scanLine := [] }
    rw [← hline]
    rfl
  | succ k ih =>
    have hread := videoRead_withLine hrow (show k < 40 by omega)
    rw [if_pos hk] at hread
    rw [videoReads_add k 1, ih (by omega)]
    exact hread

/-- The 40 reads of a scanline are its end with all its bytes. -/
theorem videoReads_scanline (hline : s.vid.scanLine = []) :
    videoReads 40 s = videoEndLine (screenBytes s s.vid.scanRow lineBytes) s := by
  have hread := videoRead_withLine hrow (k := 39) (by decide)
  rw [if_neg (by decide)] at hread
  rw [videoReads_add 39 1, videoReads_line hrow hline (by decide)]
  exact hread

end

/-- The state of a scan from `s` at the beginning of scanline `n`. -/
def scanAt (s : State) (n : Nat) : State := s.setVid { s.vid with fb := frameTo s n, scanRow := n, scanLine := [] }

theorem videoReads_scanAt (s : State) {n : Nat} (hn : n < 192) :
    videoReads 40 (scanAt s n) = videoEndLine (screenBytes s n lineBytes) (scanAt s n) :=
  videoReads_scanline (s := scanAt s n) hn rfl

/-- The end of a scanline but the last brings the scan to the next. -/
theorem videoEndLine_scanAt (s : State) {n : Nat} (hn : n + 1 < scanlines) :
    videoEndLine (screenBytes s n lineBytes) (scanAt s n) = scanAt s (n + 1) := by
  rw [scanAt.eq_def s (n + 1), frameTo_succ]
  exact if_pos hn

/-- The end of the last scanline is the end of the refresh. -/
theorem videoEndLine_scanAt_last (s : State) {n : Nat} (hn : n + 1 = scanlines) :
    videoEndLine (screenBytes s n lineBytes) (scanAt s n) = refresh s := by
  rw [refresh, frame_eq, ← hn, frameTo_succ]
  exact if_neg (hn ▸ Nat.lt_irrefl _)

/-- The reads of the first `n` scanlines, all but the last of the screen. -/
theorem videoReads_scanlines {s : State} (hrow : s.vid.scanRow = 0) (hline : s.vid.scanLine = []) {n : Nat}
    (hn : n < 192) : videoReads (40 * n) s = scanAt s n := by
  induction n with
  | zero =>
    show s = s.setVid { s.vid with fb := s.vid.fb, scanRow := 0, scanLine := [] }
    rw [← hrow, ← hline]
    rfl
  | succ n ih =>
    have hn' : n < 192 := by omega
    rw [Nat.mul_succ, videoReads_add, ih hn', videoReads_scanAt s hn', videoEndLine_scanAt s hn]

/-- Settles O53: 191 scanlines of 40 reads, and the last one, which ends the refresh. -/
theorem refreshByReads : Obligations.RefreshByReads := by
  intro s hrow hline
  have hlast : 191 < 192 := by decide
  rw [show 7680 = 40 * 191 + 40 from rfl, videoReads_add, videoReads_scanlines hrow hline hlast,
    videoReads_scanAt s hlast, videoEndLine_scanAt_last s rfl]

end Sys2Proof.Machine
end

section
/-! PROOF. The host (spec 60 R330 to R334; 70 R340, R342): what its reset and power-on leave (O54), and that its actions,
and the reads of the video task, keep the invariant (O57). -/

namespace Sys2Proof.Machine

/-! ### The machine reset and power-on (O54) -/

theorem machineReset_eq (s : State) : machineReset s =
    { s with
      bankMode := .rom
      vid := { s.vid with hiresPage := .page1, colorMode := .mono }
      latches := { s.latches with reset := true } } := by
  simp only [machineReset, bankSwitch_eq]
  rfl

theorem powerOn_of_partial {image : List Byte} (h : image.length ≠ romSize) (s : State) :
    powerOn image s = s.emit .assetMissing :=
  if_neg h

/-- With RESET alone latched the check is the RESET sequence. -/
theorem interruptCheck_of_reset {s : State} (h : s.latches = ⟨true, false, false⟩) :
    interruptCheck s = resetSequence s := by
  have hl : (resetSequence s).latches = ⟨false, false, false⟩ := by rw [resetSequence_eq, h]
  simp [interruptCheck, h, hl]

section
variable {image : List Byte} (h : image.length = romSize) (s : State)
include h

/-- What power-on leaves of each field that 10 R38 gives. -/
theorem powerOn_fields :
    let t := powerOn image s
    t.rom = romOfImage 0 image ∧ t.ram = [] ∧ t.power = .on ∧ t.bankMode = .rom ∧ t.latches = ⟨true, false, false⟩ ∧
      t.clock = 0 ∧ t.pendingIrq = 0 ∧ t.vid.colorMode = .mono ∧ t.vid.hiresPage = .page1 ∧ t.kb.kbin = 0x00 ∧
      t.kb.ctrlQuery = false ∧ t.kb.clear = true ∧ t.kb.ctrl = false ∧ t.kb.shift = false ∧ t.tape.wave = [] ∧
      t.tape.head = 0 ∧ t.tape.play = false ∧ t.tape.active = false ∧ t.tape.casin = .low ∧ t.snd.line = .low ∧
      t.snd.last = 0 := by
  simp only [powerOn, if_pos h]
  exact ⟨rfl, rfl, rfl, rfl, rfl, rfl, rfl, rfl, rfl, rfl, rfl, rfl, rfl, rfl, rfl, rfl, rfl, rfl, rfl, rfl, rfl⟩

theorem powerOn_romAt (k : Nat) : (powerOn image s).romAt k = image.getD k 0x00 := by
  obtain ⟨hrom, -⟩ := powerOn_fields h s
  rw [State.romAt, hrom, ← read_romOfImage 0 image k, Nat.zero_add]

theorem powerOn_ramAt (b : Nat) : (powerOn image s).ramAt b =
    if (0x2000 ≤ b ∧ b < 0x4000) ∨ (0xA000 ≤ b ∧ b < 0xC000) then 0xFF else 0x00 := by
  obtain ⟨-, hram, -⟩ := powerOn_fields h s
  rw [State.ramAt, hram]
  show ramDefault b = _
  simp only [ramDefault, isHiresPage_iff]

/-- The reset vector of a machine powered on is in the last bytes of its image (20 R62). -/
theorem powerOn_vectorAt : (powerOn image s).vectorAt 0xFFFC =
    BitVec.ofNat 16 ((image.getD 0x3FFD 0x00).toNat * 256 + (image.getD 0x3FFC 0x00).toNat) := by
  obtain ⟨-, -, -, hbank, -⟩ := powerOn_fields h s
  simp only [State.vectorAt, hbank, powerOn_romAt h]

end

/-- Settles O54: the resets field by field, and the first check as the RESET sequence. -/
theorem hostResets : Obligations.HostResets := by
  refine ⟨machineReset_eq, fun s image => ⟨fun h => ?_, fun h => powerOn_of_partial h s⟩⟩
  intro t
  obtain ⟨-, -, hpower, hbank, hlatches, hclock, hpending, hcolor, hpage, hkbin, hquery, hclear, hctrl, hshift, hwave,
    hhead, hplay, hactive, hcasin, hline, hlast⟩ := powerOn_fields h s
  refine ⟨fun k hk => ?_, fun b _ => powerOn_ramAt h s b, hpower, hbank, hlatches, hclock, hpending, hcolor, hpage,
    hkbin, hquery, hclear, hctrl, hshift, hwave, hhead, hplay, hactive, hcasin, hline, hlast, ?_⟩
  · have hlt : k < image.length := by omega
    show some ((powerOn image s).romAt k) = _
    rw [powerOn_romAt h, List.getD_eq_getElem?_getD, List.getElem?_eq_getElem hlt, Option.getD_some]
  · show interruptCheck (powerOn image s) = _
    rw [interruptCheck_of_reset hlatches, resetSequence_eq, powerOn_vectorAt h, hlatches]
    rfl

/-! ### The invariant (O57) -/

theorem scanlines_pos : 0 < scanlines := by decide

theorem lineBytes_pos : 0 < lineBytes := by decide

namespace StateInv

variable {s : State}

theorem powerOff (h : StateInv s) : StateInv (powerOff s) := { h with ram_wf := clearedRam_wf }

theorem powerOn (h : StateInv s) (image : List Byte) : StateInv (powerOn image s) := by
  unfold Machine.powerOn
  split
  · next hlen =>
    exact {
      ram_wf := Memory.wf_nil _ _
      rom_wf := romOfImage_wf 0 romSize image (by omega)
      unused := h.unused
      tape_ok := fun hactive => absurd hactive Bool.false_ne_true
      snd_past := Nat.le_refl 0
      snd_err := h.snd_err
      fb_wf := h.fb_wf
      scan_row := scanlines_pos
      scan_col := lineBytes_pos }
  · exact h.congr_registers rfl

theorem pushKey (h : StateInv s) (key : Key) (ctrl shift : Bool) : StateInv (pushKey key ctrl shift s) := by
  unfold Machine.pushKey
  split
  · exact h
  · exact { h with }

theorem insertTape (h : StateInv s) (file : List Byte) : StateInv (insertTape file s) := by
  unfold Machine.insertTape
  split
  · exact h.congr_registers rfl
  · exact { h with tape_ok := fun hactive => absurd hactive Bool.false_ne_true }

/-- Playing on keeps what is armed (47 R263). -/
theorem tapePlay (h : StateInv s) : StateInv (tapePlay s) :=
  { h with tape_ok := fun hactive => ⟨rfl, (h.tape_ok hactive).2⟩ }

theorem tapeStop (h : StateInv s) : StateInv (tapeStop s) :=
  { h with tape_ok := fun hactive => absurd hactive Bool.false_ne_true }

/-- While the audio device is away its error is there to be seen (47 R279). -/
theorem setAvailable (h : StateInv s) (b : Bool) : StateInv (s.setSnd (s.snd.setAvailable b)) := by
  cases b with
  | true => exact { h with snd_err := fun haway => absurd haway.symm Bool.false_ne_true }
  | false => exact { h with snd_err := fun _ => rfl }

theorem machineReset (h : StateInv s) : StateInv (machineReset s) := by
  rw [machineReset_eq]
  exact { h with }

theorem hostAct (h : StateInv s) (act : HostAction) : StateInv (hostAct act s) := by
  cases act with
  | machineReset => exact h.machineReset
  | powerOn image => exact h.powerOn image
  | powerOff => exact h.powerOff
  | pushKey key ctrl shift => exact h.pushKey key ctrl shift
  | insertTape file => exact h.insertTape file
  | tapePlay => exact h.tapePlay
  | tapeStop => exact h.tapeStop
  | setAudioAvailable b => exact h.setAvailable b
  | assertIrq | assertNmi | releaseKey | setColorMode | setSoundEnabled | setTapeSoundEnabled => exact { h with }

/-- A scanline drawn keeps the framebuffer's form, and the scan goes on inside the screen (48 R296). -/
theorem videoEndLine (h : StateInv s) (line : List Byte) : StateInv (videoEndLine line s) := by
  unfold Machine.videoEndLine
  simp only
  split
  · next hrow => exact { h with fb_wf := drawScanline_wf h.fb_wf _ _, scan_row := hrow, scan_col := lineBytes_pos }
  · exact { h with fb_wf := drawScanline_wf h.fb_wf _ _, scan_row := scanlines_pos, scan_col := lineBytes_pos }

theorem videoRead (h : StateInv s) : StateInv (videoRead s) := by
  unfold Machine.videoRead
  simp only
  split
  · next hlen => exact { h.memRead _ with scan_col := hlen }
  · exact (h.memRead _).videoEndLine _

end StateInv

/-- Every reachable state meets the invariant, by what brought the machine there. -/
theorem Reachable.stateInv {s : State} (h : Reachable s) : StateInv s := by
  induction h with
  | reset => exact resetMeetsInvariant
  | step _ hstep ih => exact stepKeepsInvariant _ _ ih hstep
  | video _ _ ih => exact ih.videoRead
  | host act _ ih => exact ih.hostAct act

/-- Settles O57: action by action, and so along every interleaving. -/
theorem environmentKeepsInvariant : Obligations.EnvironmentKeepsInvariant :=
  ⟨fun _ act h => h.hostAct act, fun _ h => h.videoRead, fun _ h => h.stateInv⟩

end Sys2Proof.Machine
end
